-- ==== Sys2Proof/Word.lean ====
section
/-! DEFINITION. The word types of the block. -/

namespace Sys2Proof

/-- A 32-bit bus word, register or XTEA half-block (00_scope R11, 20_memory R103). -/
abbrev Word := BitVec 32

/-- One byte of a buffer or of the wire. -/
abbrev Byte := BitVec 8

/-- A 12-bit byte offset in the 4 KiB register window (00_scope R7, 10_state R30). -/
abbrev BusAddr := BitVec 12

/-- A 12-bit message ID; `+` wraps modulo 4096 (45_msgid R340). -/
abbrev MsgId := BitVec 12

/-- A 6-bit value, one symbol of the wire encoding (41_codec R200). -/
abbrev Symbol := BitVec 6

end Sys2Proof
end

