-- ==== Sys2Proof/Syntax.lean ====
section
/-! DEFINITION. The commands, one constructor per row of spec/opcode_table.json (30_encoding R147).
A constructor holds exactly the operand fields its command uses (30_encoding R148); the fields it does
not use are ignored (R146; log 17) and `decode` drops them. -/

namespace Sys2Proof

/-- Operand K of the XTEA commands: which key (30_encoding R144, 44_xtea R293). -/
inductive KeySel where
  | current
  | old
  deriving DecidableEq, Repr

/-- Operand K of the CRC commands: where the start value comes from (30_encoding R144, 42_crc R241). -/
inductive StartSel where
  | crcInit
  | arg0
  deriving DecidableEq, Repr

/-- Operand K of ACK_PARSE: the kind of frame (30_encoding R144, 46_acknack R369). -/
inductive FrameKind where
  | ack
  | nack
  deriving DecidableEq, Repr

/-- Operand K of the ARB_ commands: the arbiter channel (30_encoding R144, 46_acknack R374). -/
inductive Chan where
  | c0
  | c1
  deriving DecidableEq, Repr

/-- The commands. `a` is operand A, a RAW offset or a slot number (30_encoding R141); `b` is operand B, a
count of bytes, bits or symbols (R142); `m` is operand M, the XTEA method (R143); `k` is operand K (R144). -/
inductive Instr where
  | nop
  | encode (a b : Nat)
  | decode (a b : Nat)
  | payEncode (a b : Nat) (m : BitVec 2)
  | payDecode (a b : Nat)
  | crcCompute (a b : Nat) (k : StartSel)
  | crcCheck (a b : Nat) (k : StartSel)
  | crcFill (a b : Nat) (k : StartSel)
  | pidInfo
  | xteaEnc (a b : Nat) (m : BitVec 2) (k : KeySel)
  | xteaDec (a b : Nat) (m : BitVec 2) (k : KeySel)
  | openPayload (a b : Nat) (m : BitVec 2) (k : KeySel)
  | keyRotate
  | keyCommit
  | midNext (a : Nat)
  | midValidate (a : Nat)
  | ackParse (a b : Nat) (k : FrameKind)
  | nackFatal
  | arbStart (k : Chan)
  | arbResend (k : Chan)
  | arbRespond (k : Chan)
  | arbAbort (k : Chan)
  deriving DecidableEq, Repr

end Sys2Proof
end

