-- ==== Sys2Proof/WellFormed.lean ====
section
/-! DEFINITION. Which instruction terms stand for a command word: operand A fits its 8 bits and operand B
its 9 bits (30_encoding R140 to R142). A length outside a command's legal range is well formed: such a
command is accepted and completes with BAD_PARAM (R142). -/

namespace Sys2Proof

/-- Operand A fits its field of 8 bits (30_encoding R141). -/
def fitsA (a : Nat) : Bool := a.blt 256

/-- Operand B fits its field of 9 bits (30_encoding R142). -/
def fitsB (b : Nat) : Bool := b.blt 512

/-- The instruction can be written as a command word. -/
def Instr.wellFormed : Instr → Bool
  | .nop => true
  | .encode a b => fitsA a && fitsB b
  | .decode a b => fitsA a && fitsB b
  | .payEncode a b _ => fitsA a && fitsB b
  | .payDecode a b => fitsA a && fitsB b
  | .crcCompute a b _ => fitsA a && fitsB b
  | .crcCheck a b _ => fitsA a && fitsB b
  | .crcFill a b _ => fitsA a && fitsB b
  | .pidInfo => true
  | .xteaEnc a b _ _ => fitsA a && fitsB b
  | .xteaDec a b _ _ => fitsA a && fitsB b
  | .openPayload a b _ _ => fitsA a && fitsB b
  | .keyRotate => true
  | .keyCommit => true
  | .midNext a => fitsA a
  | .midValidate a => fitsA a
  | .ackParse a b _ => fitsA a && fitsB b
  | .nackFatal => true
  | .arbStart _ => true
  | .arbResend _ => true
  | .arbRespond _ => true
  | .arbAbort _ => true

end Sys2Proof
end

