-- ==== Sys2Proof/Decode.lean ====
section
/-! DEFINITION. The decoder and the encoder of command words (30_encoding R140 to R149, 40_control R181). -/

namespace Sys2Proof

/-- Why a command word is illegal (30_encoding R149). -/
inductive Illegal where
  /-- Bits [31:28] are not 0 (30_encoding R145). -/
  | reservedBits
  /-- OP is no opcode of the map (30_encoding R147). -/
  | unassignedOpcode
  deriving DecidableEq, Repr

/-- Field OP, bits [7:0] (30_encoding R140). -/
def fieldOp (w : Word) : BitVec 8 := w.extractLsb' 0 8

/-- Field A, bits [15:8] (30_encoding R140). -/
def fieldA (w : Word) : Nat := (w.extractLsb' 8 8).toNat

/-- Field B, bits [24:16] (30_encoding R140). -/
def fieldB (w : Word) : Nat := (w.extractLsb' 16 9).toNat

/-- Field M, bits [26:25] (30_encoding R140). -/
def fieldM (w : Word) : BitVec 2 := w.extractLsb' 25 2

/-- Field K, bit [27] (30_encoding R140). -/
def fieldK (w : Word) : Bool := w.getLsbD 27

/-- Field RSV, bits [31:28] (30_encoding R140). -/
def fieldRsv (w : Word) : BitVec 4 := w.extractLsb' 28 4

/-- K as a key: 0 CUR_KEY, 1 OLD_KEY (30_encoding R144). -/
def KeySel.ofK (k : Bool) : KeySel := if k then .old else .current

/-- The K bit of a key selection. -/
def KeySel.toK : KeySel → Bool
  | .current => false
  | .old => true

/-- K as a start value: 0 CRC_INIT, 1 ARG0 (30_encoding R144). -/
def StartSel.ofK (k : Bool) : StartSel := if k then .arg0 else .crcInit

/-- The K bit of a start selection. -/
def StartSel.toK : StartSel → Bool
  | .crcInit => false
  | .arg0 => true

/-- K as a frame kind: 0 ACK, 1 NACK (30_encoding R144). -/
def FrameKind.ofK (k : Bool) : FrameKind := if k then .nack else .ack

/-- The K bit of a frame kind. -/
def FrameKind.toK : FrameKind → Bool
  | .ack => false
  | .nack => true

/-- K as a channel number (30_encoding R144). -/
def Chan.ofK (k : Bool) : Chan := if k then .c1 else .c0

/-- The K bit of a channel. -/
def Chan.toK : Chan → Bool
  | .c0 => false
  | .c1 => true

/-- The instruction of opcode `op` with the operand fields of `w` (30_encoding R147, R148). -/
def decodeOp (op : Nat) (w : Word) : Option Instr :=
  match op with
  | 0x00 => some .nop
  | 0x01 => some (.encode (fieldA w) (fieldB w))
  | 0x02 => some (.decode (fieldA w) (fieldB w))
  | 0x03 => some (.payEncode (fieldA w) (fieldB w) (fieldM w))
  | 0x04 => some (.payDecode (fieldA w) (fieldB w))
  | 0x08 => some (.crcCompute (fieldA w) (fieldB w) (.ofK (fieldK w)))
  | 0x09 => some (.crcCheck (fieldA w) (fieldB w) (.ofK (fieldK w)))
  | 0x0A => some (.crcFill (fieldA w) (fieldB w) (.ofK (fieldK w)))
  | 0x0C => some .pidInfo
  | 0x10 => some (.xteaEnc (fieldA w) (fieldB w) (fieldM w) (.ofK (fieldK w)))
  | 0x11 => some (.xteaDec (fieldA w) (fieldB w) (fieldM w) (.ofK (fieldK w)))
  | 0x12 => some (.openPayload (fieldA w) (fieldB w) (fieldM w) (.ofK (fieldK w)))
  | 0x14 => some .keyRotate
  | 0x15 => some .keyCommit
  | 0x18 => some (.midNext (fieldA w))
  | 0x19 => some (.midValidate (fieldA w))
  | 0x20 => some (.ackParse (fieldA w) (fieldB w) (.ofK (fieldK w)))
  | 0x21 => some .nackFatal
  | 0x24 => some (.arbStart (.ofK (fieldK w)))
  | 0x25 => some (.arbResend (.ofK (fieldK w)))
  | 0x26 => some (.arbRespond (.ofK (fieldK w)))
  | 0x27 => some (.arbAbort (.ofK (fieldK w)))
  | _ => none

/-- Decoding of a command word, in the order of 40_control R181: the reserved bits, then the opcode. -/
def decode (w : Word) : Except Illegal Instr :=
  if fieldRsv w ≠ 0 then .error .reservedBits
  else
    match decodeOp (fieldOp w).toNat w with
    | some i => .ok i
    | none => .error .unassignedOpcode

/-- The opcode of an instruction (30_encoding R147). -/
def Instr.opcode : Instr → BitVec 8
  | .nop => 0x00
  | .encode .. => 0x01
  | .decode .. => 0x02
  | .payEncode .. => 0x03
  | .payDecode .. => 0x04
  | .crcCompute .. => 0x08
  | .crcCheck .. => 0x09
  | .crcFill .. => 0x0A
  | .pidInfo => 0x0C
  | .xteaEnc .. => 0x10
  | .xteaDec .. => 0x11
  | .openPayload .. => 0x12
  | .keyRotate => 0x14
  | .keyCommit => 0x15
  | .midNext .. => 0x18
  | .midValidate .. => 0x19
  | .ackParse .. => 0x20
  | .nackFatal => 0x21
  | .arbStart .. => 0x24
  | .arbResend .. => 0x25
  | .arbRespond .. => 0x26
  | .arbAbort .. => 0x27

/-- The command word `RSV ++ K ++ M ++ B ++ A ++ OP` with RSV = 0 (30_encoding R140). -/
def commandWord (op : BitVec 8) (a b : Nat) (m : BitVec 2) (k : Bool) : Word :=
  0#4 ++ BitVec.ofBool k ++ m ++ BitVec.ofNat 9 b ++ BitVec.ofNat 8 a ++ op

/-- The command word of an instruction; the fields the command does not use are 0 (30_encoding R148, R151). -/
def encode (i : Instr) : Word :=
  match i with
  | .nop => commandWord i.opcode 0 0 0 false
  | .encode a b => commandWord i.opcode a b 0 false
  | .decode a b => commandWord i.opcode a b 0 false
  | .payEncode a b m => commandWord i.opcode a b m false
  | .payDecode a b => commandWord i.opcode a b 0 false
  | .crcCompute a b k => commandWord i.opcode a b 0 k.toK
  | .crcCheck a b k => commandWord i.opcode a b 0 k.toK
  | .crcFill a b k => commandWord i.opcode a b 0 k.toK
  | .pidInfo => commandWord i.opcode 0 0 0 false
  | .xteaEnc a b m k => commandWord i.opcode a b m k.toK
  | .xteaDec a b m k => commandWord i.opcode a b m k.toK
  | .openPayload a b m k => commandWord i.opcode a b m k.toK
  | .keyRotate => commandWord i.opcode 0 0 0 false
  | .keyCommit => commandWord i.opcode 0 0 0 false
  | .midNext a => commandWord i.opcode a 0 0 false
  | .midValidate a => commandWord i.opcode a 0 0 false
  | .ackParse a b k => commandWord i.opcode a b 0 k.toK
  | .nackFatal => commandWord i.opcode 0 0 0 false
  | .arbStart k => commandWord i.opcode 0 0 0 k.toK
  | .arbResend k => commandWord i.opcode 0 0 0 k.toK
  | .arbRespond k => commandWord i.opcode 0 0 0 k.toK
  | .arbAbort k => commandWord i.opcode 0 0 0 k.toK

/-- The instruction the decoder reads from the table's bits `w` of a row of `nbits` bits. A command is one
32-bit word written in one host write (30_encoding R150), so no byte order enters; bits above `nbits` are 0. -/
def decodeTableWord (nbits w : Nat) : Option Instr :=
  if 32 < nbits then none
  else
    match decode (BitVec.ofNat 32 (w % 2 ^ nbits)) with
    | .ok i => some i
    | .error _ => none

end Sys2Proof
end

