-- ==== Sys2Proof/Config.lean ====
section
/-! DEFINITION. The parameters of the hardware (00_scope R7) and the free values the spec leaves open
(00_scope R13). A constant declared `opaque` has no body: no proof can see its value, so a statement
that mentions it holds for every value. -/

namespace Sys2Proof.Config

/-- Size of RAW_BUF in bytes (00_scope R7). -/
abbrev rawBytes : Nat := 256

/-- Size of ENC_BUF in bytes (00_scope R7). -/
abbrev encBytes : Nat := 128

/-- Attempts of one arbiter transaction (00_scope R7, 90_conflicts C6). -/
abbrev maxAttempts : Nat := 8

/-- The OPEN parameter N_DEV less one (00_scope R7: 1 to 256). Free: log 4. -/
opaque nDevLessOne : BitVec 8

/-- N_DEV, the number of message-ID slots: any number from 1 to 256 (00_scope R7, 10_state R56). -/
def nDev : Nat := nDevLessOne.toNat + 1

/-- An arbitrary table from 6-bit values to wire bytes, injective or not. Free: log 5. -/
opaque encTableAny : Symbol → Byte

/-- ENC_TABLE (41_codec R200): an arbitrary INJECTIVE table. Every injective table is a possible value,
since `encTableAny` may be any table; were it not injective, the values themselves stand in. -/
def encTable (v : Symbol) : Byte :=
  if ∀ i j : Symbol, encTableAny i = encTableAny j → i = j then encTableAny v else v.zeroExtend 8

/-- The contents of the buffer byte at window offset `addr` after reset number `reset`, until something
writes it: unspecified (10_state R57, R58, R63). Free: log 1. -/
opaque bufferAtReset : (reset addr : Nat) → Byte

/-- The word of draw number `n`: what a host read returns where the spec says any value
(70_reset_and_hazards R480, R491). Free: log 2. -/
opaque freeRead : (n : Nat) → Word

end Sys2Proof.Config
end

