-- ==== Sys2Proof/Machine/State.lean ====
section
/-! DEFINITION. The state of the block (10_state), as plain data, the reasons a step can stop, and the state
after reset. INVENTORY.md lists every field with the rule that names it. -/

namespace Sys2Proof.Machine

/-- The error codes of STATUS.ERR (60_exceptions R430). No other code occurs. -/
inductive ErrCode where
  | none
  | badParam
  | badEncoding
  | crcFail
  | badMsgId
  | alreadyInProgress
  | illegalCmd
  | wrongState
  deriving DecidableEq, Repr

/-- The states of an arbiter channel (10_state R53, 46_acknack R374). STATE values 6 and 7 never occur. -/
inductive ChanState where
  | idle
  | wait
  | retryDue
  | pause
  | doneOk
  | doneFail
  deriving DecidableEq, Repr

/-- The type of a transaction (10_state R53). TYPE value 3 never occurs. -/
inductive TxType where
  | single
  | block
  | stream
  deriving DecidableEq, Repr

/-- The outcome of a transaction (10_state R55). -/
inductive TxResult where
  | none
  | success
  | singleFail
  | blockFail
  | streamFail
  deriving DecidableEq, Repr

/-- The cause of that outcome (10_state R55). -/
inductive TxCause where
  | none
  | ack
  | timeOut
  | nackFatal
  | nackExhausted
  | aborted
  deriving DecidableEq, Repr

/-- One arbiter channel: ARBn_CFG, ARBn_STATE, ARBn_TIMER and ARBn_RESULT (10_state R52 to R55). -/
structure Channel where
  /-- ARBn_CFG.TO_BASE, the timeout of the first attempt in ticks. -/
  toBase : BitVec 16
  /-- ARBn_CFG.TO_STEP, added to the timeout for each later attempt. -/
  toStep : BitVec 16
  /-- ARBn_STATE.STATE. -/
  state : ChanState
  /-- ARBn_STATE.ATTEMPT. -/
  attempt : BitVec 4
  /-- ARBn_STATE.TYPE. -/
  txType : TxType
  /-- ARBn_STATE.EXP_ID. -/
  expId : MsgId
  /-- ARBn_TIMER.REMAIN. -/
  remain : Word
  /-- ARBn_RESULT.RESULT. -/
  result : TxResult
  /-- ARBn_RESULT.CAUSE. -/
  cause : TxCause
  /-- ARBn_RESULT.HANDLE. -/
  handle : BitVec 4
  /-- ARBn_RESULT.REASON. -/
  reason : Byte
  deriving DecidableEq, Repr

/-- A channel after reset (10_state R63). -/
def Channel.atReset : Channel where
  toBase := 0
  toStep := 0
  state := .idle
  attempt := 0
  txType := .single
  expId := 0
  remain := 0
  result := .none
  cause := .none
  handle := 0
  reason := 0

/-- The parse latch PARSE0 and PARSE1 (10_state R50, R51). PARSE0.FATAL is a view: log 14. -/
structure Parse where
  valid : Bool
  isNack : Bool
  msgId : MsgId
  handle : BitVec 4
  reason : Byte
  value : Word
  deriving DecidableEq, Repr

/-- The parse latch after reset (10_state R63). -/
def Parse.atReset : Parse where
  valid := false
  isNack := false
  msgId := 0
  handle := 0
  reason := 0
  value := 0

/-- One message-ID slot MID[s] (10_state R56). -/
structure MidSlot where
  last : MsgId
  valid : Bool
  strict : Bool
  txid : MsgId
  deriving DecidableEq, Repr

/-- A slot after reset, the word 0x00002000 (10_state R56, R63). -/
def MidSlot.atReset : MidSlot where
  last := 0
  valid := false
  strict := true
  txid := 0

/-- A 16-byte key as its four words, CUR_KEY0..3 or OLD_KEY0..3 (10_state R47, R48). -/
structure Key where
  w0 : Word
  w1 : Word
  w2 : Word
  w3 : Word
  deriving DecidableEq, Repr

/-- The all-zero key both key registers reset to (10_state R63, 70_reset_and_hazards R482). -/
def Key.zero : Key where
  w0 := 0
  w1 := 0
  w2 := 0
  w3 := 0

/-- What can happen next outside a command: one entry is one atomic step of one agent (00_scope R14; log 6). -/
inductive Input where
  /-- A host bus read, `MemRead(addr, 4)` (00_scope R11). -/
  | read (addr : BusAddr)
  /-- A host bus write, `MemWrite(addr, 4, data)` (00_scope R11). -/
  | write (addr : BusAddr) (data : Word)
  /-- A bus cycle with `bus_we` and `bus_re` both 1 (10_state R30). -/
  | readWrite (addr : BusAddr) (data : Word)
  /-- A pulse of `tick_ms`, one TICK event (46_acknack R382). -/
  | tick
  /-- The level of `rst` at the next clock edges (10_state R30, 70_reset_and_hazards R480; log 10). -/
  | rst (level : Bool)
  /-- The engine's turn: it completes the accepted command, if there is one (40_control R182). -/
  | engine
  deriving DecidableEq, Repr

/-- The state of the block. -/
structure State where
  /-- CTRL.ALLOW_NOENC (10_state R35). -/
  allowNoenc : Bool
  /-- The command latch (10_state R59): the accepted command word. STATUS.BUSY is 1 exactly while it is
  full (log 14). -/
  latch : Option Word
  /-- STATUS.ERR (10_state R36). STATUS.ERRF is a view of it (log 14). -/
  err : ErrCode
  /-- STATUS.LASTOP (10_state R36). -/
  lastOp : BitVec 8
  /-- ARG0 (10_state R38). -/
  arg0 : Word
  /-- RESULT0 (10_state R39). -/
  result0 : Word
  /-- RESULT1 (10_state R39). -/
  result1 : Word
  /-- INT_STATUS: DONE, ERR, WERR, ARB0, ARB1 from bit 0 up (10_state R40). -/
  intStatus : BitVec 5
  /-- INT_ENABLE (10_state R41). -/
  intEnable : BitVec 5
  /-- CRC_POLY.POLY (10_state R43). -/
  crcPoly : BitVec 16
  /-- CRC_INIT.INIT (10_state R44). -/
  crcInit : BitVec 16
  /-- CRC_ORDER.ORDER (10_state R45). -/
  crcOrder : BitVec 5
  /-- XTEA_CFG.CPR (10_state R46). -/
  cpr : BitVec 8
  /-- CUR_KEY0 to CUR_KEY3 (10_state R47). -/
  curKey : Key
  /-- OLD_KEY0 to OLD_KEY3 (10_state R48). -/
  oldKey : Key
  /-- KEY_STATUS.OLD_VALID (10_state R49). -/
  oldValid : Bool
  /-- PARSE0 and PARSE1 (10_state R50, R51). -/
  parse : Parse
  /-- Arbiter channel 0 (10_state R52 to R55). -/
  ch0 : Channel
  /-- Arbiter channel 1 (10_state R52 to R55). -/
  ch1 : Channel
  /-- The message-ID table (10_state R56): the slots that differ from `MidSlot.atReset`, slot numbers
  strictly rising (log 16). -/
  mid : List (Nat × MidSlot)
  /-- RAW_BUF and ENC_BUF (10_state R57, R58): the bytes written since reset, by window offset, strictly
  rising (log 1). -/
  mem : List Host.Cell
  /-- The level of the `rst` input (10_state R30; log 10). -/
  rst : Bool
  /-- `bus_rdata`: the word the last host read returned (10_state R30; log 9). -/
  busRdata : Word
  /-- The model's own: which agent moves next, and with what (00_scope R14; log 6). -/
  inputs : List Input
  /-- The model's own: how many free words have been read (00_scope R13; log 2). -/
  draws : Nat
  /-- The model's own: how many resets there have been, which selects the buffers' free contents
  (10_state R57, R58; log 1). -/
  resets : Nat
  deriving DecidableEq, Repr

/-- The reasons a step can fault: none. "No behaviour of this block is `stuck`" (93_implementation_defined
part 1; 60_exceptions R433, R436; log 18). Nothing raises a fault: safe, the spec names none. -/
inductive Fault where
  deriving DecidableEq, Repr

/-- The reasons a step can refuse. -/
inductive Refusal where
  /-- An instruction without a meaning yet. Raised by no arm of `exec`: every command has its meaning.
  Safe: the run stops. -/
  | notModelled (mnemonic : String)
  /-- A bus cycle with `bus_we` and `bus_re` both 1, which "a model refuses" (10_state R30,
  93_implementation_defined I6; log 8). Raised by `step` on such an input. Safe: the run stops. -/
  | busConflict
  deriving DecidableEq, Repr

/-- The block right after reset (10_state R63, 70_reset_and_hazards R480, R481). -/
def State.reset : State where
  allowNoenc := false
  latch := none
  err := .none
  lastOp := 0
  arg0 := 0
  result0 := 0
  result1 := 0
  intStatus := 0
  intEnable := 0
  crcPoly := 0x0007
  crcInit := 0x00FF
  crcOrder := 8
  cpr := 0x20
  curKey := Key.zero
  oldKey := Key.zero
  oldValid := false
  parse := Parse.atReset
  ch0 := Channel.atReset
  ch1 := Channel.atReset
  mid := []
  mem := []
  rst := false
  busRdata := 0
  inputs := []
  draws := 0
  resets := 0

end Sys2Proof.Machine
end

