-- ==== Sys2Proof/Machine/Flags.lean ====
section
/-! DEFINITION. The flags, codes and register words of the block: what each bit of STATUS, INT_STATUS,
PARSE0, KEY_STATUS, MID[s] and the ARBn registers reads as (10_state R34 to R56). -/

namespace Sys2Proof.Machine

/-- The number of an error code (60_exceptions R430). -/
def ErrCode.code : ErrCode → BitVec 8
  | .none => 0x00
  | .badParam => 0x01
  | .badEncoding => 0x02
  | .crcFail => 0x03
  | .badMsgId => 0x04
  | .alreadyInProgress => 0x05
  | .illegalCmd => 0x06
  | .wrongState => 0x07

/-- STATUS.ERRF, "always equal to (ERR != 0)" (10_state R36). -/
def State.errf (s : State) : Bool := s.err.code != 0

/-- STATUS.BUSY: 1 while the block holds an accepted command word (10_state R36, R59). -/
def State.busy (s : State) : Bool := s.latch.isSome

/-- INT_STATUS.DONE (10_state R40). -/
def intDone : BitVec 5 := 0b00001

/-- INT_STATUS.ERR (10_state R40). -/
def intErr : BitVec 5 := 0b00010

/-- INT_STATUS.WERR (10_state R40). -/
def intWerr : BitVec 5 := 0b00100

/-- INT_STATUS.ARB0 or ARB1, bit 3 + n (10_state R40, 46_acknack R381). -/
def intArb : Chan → BitVec 5
  | .c0 => 0b01000
  | .c1 => 0b10000

/-- The `irq` output (10_state R42). -/
def State.irq (s : State) : Bool := s.intStatus &&& s.intEnable != 0

/-- The fatality of a NACK reason, `fatal(r) = r[7]` (46_acknack R373). -/
def fatalReason (r : Byte) : Bool := r.getLsbD 7

/-- PARSE0.FATAL, "IS_NACK and REASON[7]" (10_state R50). -/
def Parse.fatal (p : Parse) : Bool := p.isNack && fatalReason p.reason

/-- ARBn_STATE.STATE (10_state R53). -/
def ChanState.code : ChanState → BitVec 3
  | .idle => 0
  | .wait => 1
  | .retryDue => 2
  | .pause => 3
  | .doneOk => 4
  | .doneFail => 5

/-- ARBn_STATE.TYPE (10_state R53). -/
def TxType.code : TxType → BitVec 2
  | .single => 0
  | .block => 1
  | .stream => 2

/-- ARBn_RESULT.RESULT (10_state R55). -/
def TxResult.code : TxResult → BitVec 8
  | .none => 0
  | .success => 1
  | .singleFail => 2
  | .blockFail => 3
  | .streamFail => 4

/-- ARBn_RESULT.CAUSE (10_state R55). -/
def TxCause.code : TxCause → BitVec 4
  | .none => 0
  | .ack => 1
  | .timeOut => 2
  | .nackFatal => 3
  | .nackExhausted => 4
  | .aborted => 5

/-- The result of a failed transaction, `2 + TYPE` (46_acknack R374). -/
def TxType.failResult : TxType → TxResult
  | .single => .singleFail
  | .block => .blockFail
  | .stream => .streamFail

/-- The value of ID (10_state R34). -/
def idWord : Word := 0x4F4E0001

/-- CTRL as a word (10_state R35). -/
def State.ctrlWord (s : State) : Word := 0#31 ++ BitVec.ofBool s.allowNoenc

/-- STATUS as a word (10_state R36). -/
def State.statusWord (s : State) : Word :=
  0#8 ++ s.lastOp ++ s.err.code ++ 0#6 ++ BitVec.ofBool s.errf ++ BitVec.ofBool s.busy

/-- KEY_STATUS as a word (10_state R49). -/
def State.keyStatusWord (s : State) : Word := 0#31 ++ BitVec.ofBool s.oldValid

/-- PARSE0 as a word (10_state R50). -/
def Parse.word0 (p : Parse) : Word :=
  p.reason ++ 0#4 ++ p.handle ++ p.msgId ++ 0#1 ++ BitVec.ofBool p.fatal ++ BitVec.ofBool p.isNack
    ++ BitVec.ofBool p.valid

/-- ARBn_CFG as a word (10_state R52). -/
def Channel.cfgWord (c : Channel) : Word := c.toStep ++ c.toBase

/-- ARBn_STATE as a word (10_state R53). -/
def Channel.stateWord (c : Channel) : Word :=
  0#4 ++ c.expId ++ 0#6 ++ c.txType.code ++ c.attempt ++ 0#1 ++ c.state.code

/-- ARBn_RESULT as a word (10_state R55). -/
def Channel.resultWord (c : Channel) : Word :=
  0#8 ++ c.reason ++ c.handle ++ c.cause.code ++ c.result.code

/-- MID[s] as a word (10_state R56). -/
def MidSlot.word (d : MidSlot) : Word :=
  0#4 ++ d.txid ++ 0#2 ++ BitVec.ofBool d.strict ++ BitVec.ofBool d.valid ++ d.last

/-- The slot a host write of the word stores (10_state R56); reserved bits are ignored (R64). -/
def MidSlot.ofWord (w : Word) : MidSlot where
  last := w.extractLsb' 0 12
  valid := w.getLsbD 12
  strict := w.getLsbD 13
  txid := w.extractLsb' 16 12

end Sys2Proof.Machine
end

