-- ==== Sys2Proof/Machine/Ops.lean ====
section
/-! DEFINITION. The operations every meaning shares: sparse tables in canonical form, the bytes of the two
buffers, the message-ID table, the channels, the channel event, and the lifecycle of a command: acceptance
(40_control R180) and completion with its error code (R183), which is this block's way to report an
exception. It has no traps and no return from one (60_exceptions R436, R437). -/

namespace Sys2Proof.Machine

/-! ### Sparse tables: lists of (key, value) with strictly rising keys -/

/-- The value listed under a key. -/
def Sparse.find {α : Type} (k : Nat) : List (Nat × α) → Option α
  | [] => none
  | (i, v) :: t => if i = k then some v else Sparse.find k t

/-- List a value under a key, in its place. -/
def Sparse.put {α : Type} (k : Nat) (v : α) : List (Nat × α) → List (Nat × α)
  | [] => [(k, v)]
  | (i, x) :: t =>
    if k < i then (k, v) :: (i, x) :: t
    else if k = i then (k, v) :: t
    else (i, x) :: Sparse.put k v t

/-- Remove a key. -/
def Sparse.remove {α : Type} (k : Nat) : List (Nat × α) → List (Nat × α)
  | [] => []
  | (i, x) :: t => if i = k then t else (i, x) :: Sparse.remove k t

/-- The keys are at least `lo` and strictly rising. -/
def Sparse.risingFrom {α : Type} (lo : Nat) : List (Nat × α) → Bool
  | [] => true
  | (i, _) :: t => Nat.ble lo i && Sparse.risingFrom (i + 1) t

/-! ### RAW_BUF and ENC_BUF -/

/-- Window offset of RAW_BUF (20_memory R102). -/
def rawBase : Nat := 0x800

/-- Window offset of ENC_BUF (20_memory R102). -/
def encBase : Nat := 0xC00

/-- The window offsets that hold a buffer byte (20_memory R102). -/
def isBufferAddr (addr : Nat) : Bool :=
  (Nat.ble rawBase addr && Nat.blt addr (rawBase + Config.rawBytes))
    || (Nat.ble encBase addr && Nat.blt addr (encBase + Config.encBytes))

/-- The canonical form of the buffers' contents: addresses strictly rising, each the address of a buffer
byte. An unlisted byte has no stored value (log 1), so no entry can repeat it. -/
def Memory.wf (m : List Host.Cell) : Bool :=
  Sparse.risingFrom 0 m && m.all (fun c => isBufferAddr c.1)

/-- One byte of a buffer. A byte nothing has written since reset reads as its free contents
(10_state R57, R58; log 1). -/
def State.readByte (s : State) (addr : Nat) : Byte :=
  (Sparse.find addr s.mem).getD (Config.bufferAtReset s.resets addr)

/-- Store bytes at rising addresses. -/
def Memory.writeBytes (m : List Host.Cell) (addr : Nat) : List Byte → List Host.Cell
  | [] => m
  | v :: vs => Memory.writeBytes (Sparse.put addr v m) (addr + 1) vs

/-- Store bytes in a buffer at rising window offsets. -/
def State.writeBytes (s : State) (addr : Nat) (vs : List Byte) : State :=
  { s with mem := Memory.writeBytes s.mem addr vs }

/-- The bytes `RAW[a..a+n-1]` (00_scope R10). -/
def State.rawRange (s : State) (a n : Nat) : List Byte :=
  (List.range n).map fun i => s.readByte (rawBase + a + i)

/-- The bytes `ENC[a..a+n-1]` (00_scope R10). -/
def State.encRange (s : State) (a n : Nat) : List Byte :=
  (List.range n).map fun i => s.readByte (encBase + a + i)

/-- `RAW[a..] <- vs` (00_scope R10). -/
def State.putRaw (s : State) (a : Nat) (vs : List Byte) : State := s.writeBytes (rawBase + a) vs

/-- `ENC[a..] <- vs` (00_scope R10). -/
def State.putEnc (s : State) (a : Nat) (vs : List Byte) : State := s.writeBytes (encBase + a) vs

/-! ### The message-ID table -/

/-- The canonical form of the table: slot numbers strictly rising, each below N_DEV, no entry equal to what
an unlisted slot holds. -/
def MidTable.wf (t : List (Nat × MidSlot)) : Bool :=
  Sparse.risingFrom 0 t && t.all (fun e => Nat.blt e.1 Config.nDev && e.2 != MidSlot.atReset)

/-- MID[k] (10_state R56). -/
def State.midSlot (s : State) (k : Nat) : MidSlot := (Sparse.find k s.mid).getD MidSlot.atReset

/-- `MID[k] <- d`, keeping the canonical form. -/
def State.setMid (s : State) (k : Nat) (d : MidSlot) : State :=
  { s with mid := if d = MidSlot.atReset then Sparse.remove k s.mid else Sparse.put k d s.mid }

/-! ### Results, keys and channels -/

/-- `RESULT0 <- v` (10_state R39). -/
def State.setResult0 (s : State) (v : Word) : State := { s with result0 := v }

/-- `RESULT1 <- v` (10_state R39). -/
def State.setResult1 (s : State) (v : Word) : State := { s with result1 := v }

/-- Channel n (46_acknack R374). -/
def State.chan (s : State) : Chan → Channel
  | .c0 => s.ch0
  | .c1 => s.ch1

/-- Replace channel n. -/
def State.setChan (s : State) (n : Chan) (c : Channel) : State :=
  match n with
  | .c0 => { s with ch0 := c }
  | .c1 => { s with ch1 := c }

/-- Set bits of INT_STATUS (10_state R40). -/
def State.setInt (s : State) (bits : BitVec 5) : State := { s with intStatus := s.intStatus ||| bits }

/-- `event(n)`: set the channel's INT_STATUS bit (46_acknack R381). -/
def State.event (s : State) (n : Chan) : State := s.setInt (intArb n)

/-! ### The lifecycle of a command -/

/-- Acceptance of the command word `w` (40_control R180). -/
def State.accept (s : State) (w : Word) : State :=
  { s with latch := some w, err := .none, lastOp := w.extractLsb' 0 8 }

/-- The INT_STATUS bits a completion with code `e` sets (40_control R183). -/
def completionBits (e : ErrCode) : BitVec 5 := if e = .none then intDone else intDone ||| intErr

/-- Completion with code `e` (40_control R183): ERR takes the code, DONE is set, ERR of INT_STATUS if the
code is not 0, and BUSY falls. -/
def State.complete (s : State) (e : ErrCode) : State :=
  { s with err := e, latch := none, intStatus := s.intStatus ||| completionBits e }

/-- The state after a command that ends normally (40_control R183). -/
def State.done (s : State) : State := s.complete .none

/-- `raise Error(e)` (00_scope R12, 40_control R184): the command completes with code `e`, and nothing else
changes beyond the writes already made in `s`. -/
def State.raise (s : State) (e : ErrCode) : State := s.complete e

end Sys2Proof.Machine
end

