-- ==== Sys2Proof/Machine/Operands.lean ====
section
/-! DEFINITION. Operand forms: the fields of ARG0 (30_encoding R148), the ranges of the two buffers
(20_memory R108), the selections of K (30_encoding R144), big-endian words (20_memory R100) and bit streams,
most significant bit first (41_codec R201 to R203). -/

namespace Sys2Proof.Machine

/-- The range `RAW[a..a+n-1]` lies inside RAW_BUF (20_memory R108). -/
abbrev rawFits (a n : Nat) : Prop := a + n ≤ Config.rawBytes

/-- The range `ENC[a..a+n-1]` lies inside ENC_BUF (20_memory R108). -/
abbrev encFits (a n : Nat) : Prop := a + n ≤ Config.encBytes

/-- `ceil(n/d)` (00_scope R9). -/
def ceilDiv (n d : Nat) : Nat := (n + (d - 1)) / d

/-! ### Fields of ARG0 -/

/-- ARG0[7:0], the ENC_BUF offset of the codec commands (41_codec R204 to R208). -/
def State.encOffset (s : State) : Nat := (s.arg0.extractLsb' 0 8).toNat

/-- ARG0[15:0], the raw PID of PID_INFO (43_packet_layout R272) and the start value of a CRC (42_crc R241). -/
def State.argHalf (s : State) : BitVec 16 := s.arg0.extractLsb' 0 16

/-- ARG0[11:0], a message ID (45_msgid R343, 46_acknack R375). -/
def State.argMsgId (s : State) : MsgId := s.arg0.extractLsb' 0 12

/-- ARG0[13:12], the TYPE of ARB_START (46_acknack R375). -/
def State.argType (s : State) : BitVec 2 := s.arg0.extractLsb' 12 2

/-- ARG0[7:0], the reason of NACK_FATAL (46_acknack R372). -/
def State.argReason (s : State) : Byte := s.arg0.extractLsb' 0 8

/-! ### Selections by K -/

/-- The start value of a CRC command (42_crc R241). -/
def State.startValue (s : State) : StartSel → BitVec 16
  | .crcInit => s.crcInit
  | .arg0 => s.argHalf

/-- The key a command selects (44_xtea R293). -/
def State.key (s : State) : KeySel → Key
  | .current => s.curKey
  | .old => s.oldKey

/-- The other key, `1 - K` (44_xtea R298). -/
def otherKey : KeySel → KeySel
  | .current => .old
  | .old => .current

/-! ### Words of bytes, big-endian -/

/-- The big-endian word of the first four bytes (00_scope R10). -/
def be32 (bs : List Byte) : Word :=
  (bs.getD 0 0 ++ bs.getD 1 0 ++ bs.getD 2 0 ++ bs.getD 3 0 : BitVec (8 + 8 + 8 + 8))

/-- The four bytes of a word, the most significant first (00_scope R10, `PUT32`). -/
def bytesOf (w : Word) : List Byte :=
  [w.extractLsb' 24 8, w.extractLsb' 16 8, w.extractLsb' 8 8, w.extractLsb' 0 8]

/-! ### Bit streams -/

/-- The bits of a value, most significant first (41_codec R201). -/
def bitsOf {w : Nat} (v : BitVec w) : List Bool := (List.range w).map fun i => v.getMsbD i

/-- The bit stream of a list of values (41_codec R201, R203). -/
def bitStream {w : Nat} (vs : List (BitVec w)) : List Bool := vs.flatMap bitsOf

/-- The first `w` bits of a stream as a value, the first bit most significant; a stream that ends sooner is
padded with zero bits (41_codec R202, R203). -/
def ofBits : (w : Nat) → List Bool → BitVec w
  | 0, _ => 0#0
  | w + 1, bits => BitVec.cons (bits.headD false) (ofBits w bits.tail)

/-- The first `n` values of `w` bits of a stream (41_codec R202, R203). -/
def chunks (w : Nat) : (n : Nat) → List Bool → List (BitVec w)
  | 0, _ => []
  | n + 1, bits => ofBits w bits :: chunks w n (bits.drop w)

end Sys2Proof.Machine
end

