-- ==== Sys2Proof/Machine/Bus.lean ====
section
/-! DEFINITION. Host accesses: the register map (10_state R33), reads and writes of the window (20_memory),
and the BUSY rules (70_reset_and_hazards R490, R491). -/

namespace Sys2Proof.Machine

/-- What a window offset addresses (10_state R33). -/
inductive Target where
  | id
  | ctrl
  | status
  | cmd
  | arg0
  | result0
  | result1
  | intStatus
  | intEnable
  | crcPoly
  | crcInit
  | crcOrder
  | xteaCfg
  | curKey0 | curKey1 | curKey2 | curKey3
  | oldKey0 | oldKey1 | oldKey2 | oldKey3
  | keyStatus
  | parse0
  | parse1
  | arbCfg (n : Chan)
  | arbState (n : Chan)
  | arbTimer (n : Chan)
  | arbResult (n : Chan)
  /-- MID[k], k < N_DEV. -/
  | mid (k : Nat)
  /-- The word of RAW_BUF or ENC_BUF that starts at this window offset. -/
  | buffer (addr : Nat)
  /-- Every other offset: reads 0, ignores writes (20_memory R105). -/
  | reserved
  deriving DecidableEq, Repr

/-- The target of a word offset above the registers: MID slots, buffers, reserved (20_memory R102, R105). -/
def tableTarget (off : Nat) : Target :=
  if 0x400 ≤ off ∧ off < 0x800 then
    if (off - 0x400) / 4 < Config.nDev then .mid ((off - 0x400) / 4) else .reserved
  else if isBufferAddr off then .buffer off
  else .reserved

/-- The target of a bus address; bits [1:0] are ignored (20_memory R104, 10_state R33). -/
def target (addr : BusAddr) : Target :=
  match (addr &&& 0xFFC#12).toNat with
  | 0x000 => .id
  | 0x004 => .ctrl
  | 0x008 => .status
  | 0x00C => .cmd
  | 0x010 => .arg0
  | 0x018 => .result0
  | 0x01C => .result1
  | 0x020 => .intStatus
  | 0x024 => .intEnable
  | 0x030 => .crcPoly
  | 0x034 => .crcInit
  | 0x038 => .crcOrder
  | 0x03C => .xteaCfg
  | 0x040 => .curKey0
  | 0x044 => .curKey1
  | 0x048 => .curKey2
  | 0x04C => .curKey3
  | 0x050 => .oldKey0
  | 0x054 => .oldKey1
  | 0x058 => .oldKey2
  | 0x05C => .oldKey3
  | 0x060 => .keyStatus
  | 0x068 => .parse0
  | 0x06C => .parse1
  | 0x080 => .arbCfg .c0
  | 0x084 => .arbState .c0
  | 0x088 => .arbTimer .c0
  | 0x08C => .arbResult .c0
  | 0x090 => .arbCfg .c1
  | 0x094 => .arbState .c1
  | 0x098 => .arbTimer .c1
  | 0x09C => .arbResult .c1
  | off => tableTarget off

/-- The targets the register map marks RW (10_state R33), INT_ENABLE left out: their writes are ignored
while BUSY (70_reset_and_hazards R490). -/
def Target.guarded : Target → Bool
  | .ctrl | .arg0 | .crcPoly | .crcInit | .crcOrder | .xteaCfg => true
  | .curKey0 | .curKey1 | .curKey2 | .curKey3 | .oldKey0 | .oldKey1 | .oldKey2 | .oldKey3 => true
  | .keyStatus | .arbCfg _ | .mid _ | .buffer _ => true
  | .id | .status | .cmd | .result0 | .result1 | .intStatus | .intEnable => false
  | .parse0 | .parse1 | .arbState _ | .arbTimer _ | .arbResult _ | .reserved => false

/-- The targets whose reads are true while BUSY (70_reset_and_hazards R491): all but what a command may
write. CMD and the reserved offsets read 0 at all times (10_state R37, 20_memory R105; log 3). -/
def Target.trueWhileBusy : Target → Bool
  | .id | .status | .intStatus | .intEnable => true
  | .ctrl | .crcPoly | .crcInit | .crcOrder | .xteaCfg | .arg0 => true
  | .cmd | .reserved => true
  | .result0 | .result1 => false
  | .curKey0 | .curKey1 | .curKey2 | .curKey3 | .oldKey0 | .oldKey1 | .oldKey2 | .oldKey3 => false
  | .keyStatus | .parse0 | .parse1 | .arbCfg _ | .arbState _ | .arbTimer _ | .arbResult _ => false
  | .mid _ | .buffer _ => false

/-- The word of a buffer at a window offset, big-endian lanes (20_memory R100). -/
def State.bufferWord (s : State) (addr : Nat) : Word :=
  be32 ((List.range 4).map fun i => s.readByte (addr + i))

/-- What a target holds (10_state R34 to R58). -/
def State.readTarget (s : State) : Target → Word
  | .id => idWord
  | .ctrl => s.ctrlWord
  | .status => s.statusWord
  | .cmd => 0
  | .arg0 => s.arg0
  | .result0 => s.result0
  | .result1 => s.result1
  | .intStatus => s.intStatus.zeroExtend 32
  | .intEnable => s.intEnable.zeroExtend 32
  | .crcPoly => s.crcPoly.zeroExtend 32
  | .crcInit => s.crcInit.zeroExtend 32
  | .crcOrder => s.crcOrder.zeroExtend 32
  | .xteaCfg => s.cpr.zeroExtend 32
  | .curKey0 => s.curKey.w0
  | .curKey1 => s.curKey.w1
  | .curKey2 => s.curKey.w2
  | .curKey3 => s.curKey.w3
  | .oldKey0 => s.oldKey.w0
  | .oldKey1 => s.oldKey.w1
  | .oldKey2 => s.oldKey.w2
  | .oldKey3 => s.oldKey.w3
  | .keyStatus => s.keyStatusWord
  | .parse0 => s.parse.word0
  | .parse1 => s.parse.value
  | .arbCfg n => (s.chan n).cfgWord
  | .arbState n => (s.chan n).stateWord
  | .arbTimer n => (s.chan n).remain
  | .arbResult n => (s.chan n).resultWord
  | .mid k => (s.midSlot k).word
  | .buffer addr => s.bufferWord addr
  | .reserved => 0

/-- CRC_ORDER after a write of `v`: an illegal value leaves it unchanged (10_state R45). -/
def legalOrder (order v : BitVec 5) : BitVec 5 := if 1 ≤ v ∧ v ≤ 16 then v else order

/-- What a write stores in a guarded target; reserved bits are ignored (10_state R35 to R58, R64). -/
def State.writeTarget (s : State) (tgt : Target) (v : Word) : State :=
  match tgt with
  | .ctrl => { s with allowNoenc := v.getLsbD 0 }
  | .arg0 => { s with arg0 := v }
  | .crcPoly => { s with crcPoly := v.extractLsb' 0 16 }
  | .crcInit => { s with crcInit := v.extractLsb' 0 16 }
  | .crcOrder => { s with crcOrder := legalOrder s.crcOrder (v.extractLsb' 0 5) }
  | .xteaCfg => { s with cpr := v.extractLsb' 0 8 }
  | .curKey0 => { s with curKey := { s.curKey with w0 := v } }
  | .curKey1 => { s with curKey := { s.curKey with w1 := v } }
  | .curKey2 => { s with curKey := { s.curKey with w2 := v } }
  | .curKey3 => { s with curKey := { s.curKey with w3 := v } }
  | .oldKey0 => { s with oldKey := { s.oldKey with w0 := v } }
  | .oldKey1 => { s with oldKey := { s.oldKey with w1 := v } }
  | .oldKey2 => { s with oldKey := { s.oldKey with w2 := v } }
  | .oldKey3 => { s with oldKey := { s.oldKey with w3 := v } }
  | .keyStatus => { s with oldValid := v.getLsbD 0 }
  | .arbCfg n =>
    s.setChan n { s.chan n with toBase := v.extractLsb' 0 16, toStep := v.extractLsb' 16 16 }
  | .mid k => s.setMid k (MidSlot.ofWord v)
  | .buffer addr => s.writeBytes addr (bytesOf v)
  | .id | .status | .cmd | .result0 | .result1 | .intStatus | .intEnable => s
  | .parse0 | .parse1 | .arbState _ | .arbTimer _ | .arbResult _ | .reserved => s

/-- A host read that the spec gives any value: the next free word (70_reset_and_hazards R491; log 2). -/
def State.readFree (s : State) : State := { s with busRdata := Config.freeRead s.draws, draws := s.draws + 1 }

/-- A host read (20_memory R105, R107; 70_reset_and_hazards R491): while BUSY a read of what a command may
write is free. It changes nothing in the block. -/
def State.hostRead (s : State) (addr : BusAddr) : State :=
  if s.busy ∧ (target addr).trueWhileBusy = false then s.readFree
  else { s with busRdata := s.readTarget (target addr) }

/-- A host write (20_memory R105, R107; 70_reset_and_hazards R490). -/
def State.hostWrite (s : State) (addr : BusAddr) (v : Word) : State :=
  match target addr with
  | .cmd => if s.busy then s.setInt intWerr else s.accept v
  | .intStatus => { s with intStatus := s.intStatus &&& ~~~ (v.extractLsb' 0 5) }
  | .intEnable => { s with intEnable := v.extractLsb' 0 5 }
  | t =>
    if t.guarded = false then s
    else if s.busy then s.setInt intWerr
    else s.writeTarget t v

end Sys2Proof.Machine
end

