-- ==== Sys2Proof/Machine/Crc.lean ====
section
/-! DEFINITION. The CRC unit (42_crc). -/

namespace Sys2Proof.Machine

/-- The mask `2^n - 1` of a CRC of order `n` (42_crc R240). -/
def crcMask (n : Nat) : BitVec 16 := BitVec.ofNat 16 (2 ^ n - 1)

/-- One data bit enters the CRC register (42_crc R240). -/
def crcBit (n : Nat) (poly c : BitVec 16) (bit : Bool) : BitVec 16 :=
  if (c.getLsbD (n - 1) ^^ bit) then ((c <<< 1) &&& crcMask n) ^^^ (poly &&& crcMask n)
  else (c <<< 1) &&& crcMask n

/-- `CRC(bytes, I, n, P)` (42_crc R240): the data bits enter most significant first. -/
def crcOf (bytes : List Byte) (start : BitVec 16) (n : Nat) (poly : BitVec 16) : BitVec 16 :=
  (bitStream bytes).foldl (crcBit n poly) (start &&& crcMask n)

/-- The CRC under the CRC_ORDER and CRC_POLY registers (42_crc R240, R246). -/
def State.crc (s : State) (bytes : List Byte) (start : BitVec 16) : BitVec 16 :=
  crcOf bytes start s.crcOrder.toNat s.crcPoly

/-- CRC_ORDER allows a stored CRC byte (42_crc R242). -/
abbrev State.storedCrcOk (s : State) : Prop := s.crcOrder.toNat ≤ 8

/-- CRC_COMPUTE (42_crc R243). -/
def execCrcCompute (a b : Nat) (k : StartSel) (s : State) : Host.Outcome State Fault Refusal :=
  .next <|
  if ¬ rawFits a b then s.raise .badParam
  else (s.setResult0 ((s.crc (s.rawRange a b) (s.startValue k)).zeroExtend 32)).done

/-- CRC_CHECK (42_crc R244). -/
def execCrcCheck (a b : Nat) (k : StartSel) (s : State) : Host.Outcome State Fault Refusal :=
  .next <|
  if b = 0 ∨ ¬ rawFits a b ∨ ¬ s.storedCrcOk then s.raise .badParam
  else
    let c := s.crc (s.rawRange (a + 1) (b - 1)) (s.startValue k)
    let stored := s.readByte (rawBase + a)
    let t := (s.setResult0 (c.zeroExtend 32)).setResult1 (stored.zeroExtend 32)
    if c = stored.zeroExtend 16 then t.done else t.raise .crcFail

/-- CRC_FILL (42_crc R245). -/
def execCrcFill (a b : Nat) (k : StartSel) (s : State) : Host.Outcome State Fault Refusal :=
  .next <|
  if b = 0 ∨ ¬ rawFits a b ∨ ¬ s.storedCrcOk then s.raise .badParam
  else
    let c := s.crc (s.rawRange (a + 1) (b - 1)) (s.startValue k)
    ((s.putRaw a [c.extractLsb' 0 8]).setResult0 (c.zeroExtend 32)).done

end Sys2Proof.Machine
end

