-- ==== Sys2Proof/Machine/AckNack.lean ====
section
/-! DEFINITION. The ACK/NACK frame parser and the reason classifier (46_acknack sections 1 and 2). -/

namespace Sys2Proof.Machine

/-- The header length `3 + K` of a frame (46_acknack R369). -/
def headerLen : FrameKind → Nat
  | .ack => 3
  | .nack => 4

/-- `size(h)`, the data bytes the block reads for a handle (46_acknack R371). -/
def handleSize (h : BitVec 4) : Nat :=
  if h = 1 ∨ h = 3 ∨ h = 4 ∨ h = 5 ∨ h = 6 ∨ h = 9 ∨ h = 10 ∨ h = 11 then 4 else 0

/-- The parse latch of the frame at `RAW[a]` (46_acknack R369, R370). -/
def State.parseFrame (s : State) (a : Nat) (k : FrameKind) : Parse :=
  let h := (s.readByte (rawBase + a + 2)).extractLsb' 0 4
  { valid := true
    isNack := k.toK
    msgId := s.readByte (rawBase + a + 1) ++ (s.readByte (rawBase + a + 2)).extractLsb' 4 4
    handle := h
    reason := if k.toK then s.readByte (rawBase + a + 3) else 0
    value := if handleSize h = 4 then be32 (s.rawRange (a + headerLen k) 4) else 0 }

/-- ACK_PARSE (46_acknack R370). -/
def execAckParse (a b : Nat) (k : FrameKind) (s : State) : Host.Outcome State Fault Refusal :=
  .next <|
  if ¬ rawFits a b ∨ b < headerLen k ∨ ¬ s.storedCrcOk then s.raise .badParam
  else if (s.readByte (rawBase + a)).zeroExtend 16 ≠ s.crc (s.rawRange (a + 1) (b - 1)) s.crcInit then
    s.raise .crcFail
  else
    let p := s.parseFrame a k
    if 12 ≤ p.handle ∨ b < headerLen k + handleSize p.handle then s.raise .badParam
    else
      ((State.setResult0 { s with parse := p } p.word0).setResult1 (BitVec.ofNat 32 (a + headerLen k))).done

/-- NACK_FATAL (46_acknack R372). -/
def execNackFatal (s : State) : Host.Outcome State Fault Refusal :=
  .next <|
  let r := s.argReason
  ((s.setResult0
      ((BitVec.ofBool (r == 0) ++ r.extractLsb' 6 1 ++ r.extractLsb' 7 1).zeroExtend 32)).setResult1 0).done

end Sys2Proof.Machine
end

