-- ==== Sys2Proof/Machine/Arbiter.lean ====
section
/-! DEFINITION. The timeout and retry arbiter: its four commands and the TICK event (46_acknack sections 3
and 4). -/

namespace Sys2Proof.Machine

/-- The transaction is in progress: WAIT, RETRY_DUE or PAUSE (46_acknack R374). -/
def ChanState.inProgress : ChanState → Bool
  | .wait => true
  | .retryDue => true
  | .pause => true
  | .idle => false
  | .doneOk => false
  | .doneFail => false

/-- `timeout(a) = TO_BASE + (a - 1) * TO_STEP` as a 32-bit number (46_acknack R380). -/
def Channel.timeout (c : Channel) (a : Nat) : Word :=
  BitVec.ofNat 32 (c.toBase.toNat + (a - 1) * c.toStep.toNat)

/-- Entry to DONE_OK (46_acknack R374). -/
def Channel.succeed (c : Channel) : Channel :=
  { c with state := .doneOk, result := .success, cause := .ack, remain := 0 }

/-- Entry to DONE_FAIL with a cause (46_acknack R374). -/
def Channel.fail (c : Channel) (cause : TxCause) : Channel :=
  { c with state := .doneFail, result := c.txType.failResult, cause := cause, remain := 0 }

/-- Entry to RETRY_DUE (46_acknack R374). -/
def Channel.retry (c : Channel) : Channel := { c with state := .retryDue, remain := 0 }

/-- The type a channel serves for a TYPE operand: 0 on channel 0, 1 or 2 on channel 1 (46_acknack R375). -/
def servedType (n : Chan) (t : BitVec 2) : Option TxType :=
  match n, t.toNat with
  | .c0, 0 => some .single
  | .c1, 1 => some .block
  | .c1, 2 => some .stream
  | _, _ => none

/-- ARB_START (46_acknack R375). -/
def execArbStart (n : Chan) (s : State) : Host.Outcome State Fault Refusal :=
  .next <|
  let c := s.chan n
  if c.state.inProgress then s.raise .alreadyInProgress
  else
    match servedType n s.argType with
    | none => s.raise .badParam
    | some t =>
      if c.toBase = 0 then s.raise .badParam
      else
        (s.setChan n
          { c with
            expId := s.argMsgId, txType := t, attempt := 1, result := .none, cause := .none, handle := 0,
            reason := 0, remain := c.timeout 1, state := .wait }).done

/-- ARB_RESEND (46_acknack R376). -/
def execArbResend (n : Chan) (s : State) : Host.Outcome State Fault Refusal :=
  .next <|
  let c := s.chan n
  if c.state ≠ .retryDue then s.raise .wrongState
  else
    (s.setChan n
      { c with attempt := c.attempt + 1, remain := c.timeout (c.attempt + 1).toNat, state := .wait }).done

/-- TO_BASE after a time-based handle (46_acknack R377): SLOW_DOWN_TIME adds VALUE and saturates, by exact
addition (log 13); SPEED_UP_TIME subtracts it with floor 1; every other handle leaves it. -/
def adjustedBase (base : BitVec 16) (h : BitVec 4) (v : Word) : BitVec 16 :=
  if h = 9 then BitVec.ofNat 16 (min 0xFFFF (base.toNat + v.toNat))
  else if h = 10 then (if base.toNat ≤ v.toNat then 1 else BitVec.ofNat 16 (base.toNat - v.toNat))
  else base

/-- The channel after a response: HANDLE, REASON and TO_BASE are taken from the frame, then the transition
of 46_acknack R377 is made. The Bool says whether the channel's event is raised. -/
def Channel.respond (c : Channel) (p : Parse) : Channel × Bool :=
  let c' := { c with handle := p.handle, reason := p.reason, toBase := adjustedBase c.toBase p.handle p.value }
  if p.isNack = false then (c'.succeed, true)
  else if p.fatal then (c'.fail .nackFatal, true)
  else if c'.attempt.toNat < Config.maxAttempts then
    if p.handle = 11 ∧ p.value ≠ 0 then ({ c' with state := .pause, remain := p.value }, false)
    else (c'.retry, true)
  else (c'.fail .nackExhausted, true)

/-- Raise the event of channel `n` if `raised` (46_acknack R381). -/
def State.eventIf (s : State) (n : Chan) (raised : Bool) : State := if raised then s.event n else s

/-- ARB_RESPOND (46_acknack R377). -/
def execArbRespond (n : Chan) (s : State) : Host.Outcome State Fault Refusal :=
  .next <|
  let c := s.chan n
  if c.state.inProgress = false then s.raise .wrongState
  else if s.parse.valid = false then s.raise .wrongState
  else if s.parse.msgId ≠ c.expId then s.raise .badMsgId
  else
    let r := c.respond s.parse
    ((State.setChan { s with parse := { s.parse with valid := false } } n r.1).eventIf n r.2).done

/-- ARB_ABORT (46_acknack R378). -/
def execArbAbort (n : Chan) (s : State) : Host.Outcome State Fault Refusal :=
  .next <|
  let c := s.chan n
  if c.state.inProgress = false then s.raise .wrongState
  else ((s.setChan n (c.fail .aborted)).event n).done

/-- One TICK on a channel (46_acknack R382), and whether its event is raised. REMAIN is a 32-bit word and
its decrement wraps (00_scope R9; log 12). -/
def Channel.tick (c : Channel) : Channel × Bool :=
  if c.state = .wait ∨ c.state = .pause then
    let c' := { c with remain := c.remain - 1 }
    if c'.remain = 0 then
      if c'.state = .pause then ({ c' with state := .retryDue }, true)
      else if c'.attempt.toNat < Config.maxAttempts then ({ c' with state := .retryDue }, true)
      else ({ c' with state := .doneFail, result := c'.txType.failResult, cause := .timeOut }, true)
    else (c', false)
  else (c, false)

/-- One TICK on channel `n` of the block. -/
def State.tickChan (s : State) (n : Chan) : State :=
  let r := (s.chan n).tick
  (s.setChan n r.1).eventIf n r.2

/-- The TICK event: channel 0, then channel 1 (46_acknack R382, 60_exceptions R435). -/
def State.tick (s : State) : State := (s.tickChan .c0).tickChan .c1

end Sys2Proof.Machine
end

