-- ==== Sys2Proof/Machine/Codec.lean ====
section
/-! DEFINITION. The 6-bits-per-byte codec (41_codec). -/

namespace Sys2Proof.Machine

/-- The 64 six-bit values. -/
def allSymbols : List Symbol := (List.range 64).map (BitVec.ofNat 6)

/-- `DEC_TABLE[b]`, where `VALID(b)` holds (41_codec R200). -/
def decTable (b : Byte) : Option Symbol := allSymbols.find? fun v => Config.encTable v == b

/-- The index of the first wire byte that is not in the alphabet (41_codec R205). -/
def firstInvalid (bs : List Byte) : Option Nat := bs.findIdx? fun b => (decTable b).isNone

/-- The symbols of valid wire bytes (41_codec R203). -/
def symbolsOf (bs : List Byte) : List Symbol := bs.map fun b => (decTable b).getD 0

/-- The wire bytes of the first `n` symbols of a bit stream (41_codec R202). -/
def wireBytes (n : Nat) (bits : List Bool) : List Byte := (chunks 6 n bits).map Config.encTable

/-- The raw lengths of a payload (41_codec R206). -/
def payLengths : List Nat := [8, 16, 24, 32]

/-- `PAYLEN(L)`, the wire bytes of a payload of `L` raw bytes (41_codec R206). -/
def payLen (len : Nat) : Nat := ceilDiv (8 * len + 2) 6

/-- ENCODE (41_codec R204). -/
def execEncode (a n : Nat) (s : State) : Host.Outcome State Fault Refusal :=
  .next <|
  if n = 0 ∨ ¬ rawFits a (ceilDiv n 8) ∨ ¬ encFits s.encOffset (ceilDiv n 6) then s.raise .badParam
  else
    (((s.putEnc s.encOffset
          (wireBytes (ceilDiv n 6) ((bitStream (s.rawRange a (ceilDiv n 8))).take n))).setResult0
        (BitVec.ofNat 32 (ceilDiv n 6))).setResult1 0).done

/-- DECODE (41_codec R205). -/
def execDecode (a k : Nat) (s : State) : Host.Outcome State Fault Refusal :=
  .next <|
  if k = 0 ∨ ¬ encFits s.encOffset k ∨ ¬ rawFits a (ceilDiv (6 * k) 8) then s.raise .badParam
  else
    match firstInvalid (s.encRange s.encOffset k) with
    | some j => (s.setResult1 (BitVec.ofNat 32 j)).raise .badEncoding
    | none =>
      (((s.putRaw a
            (chunks 8 (ceilDiv (6 * k) 8) (bitStream (symbolsOf (s.encRange s.encOffset k))))).setResult0
          (BitVec.ofNat 32 (ceilDiv (6 * k) 8))).setResult1 0).done

/-- PAY_ENCODE (41_codec R207). -/
def execPayEncode (a len : Nat) (m : BitVec 2) (s : State) : Host.Outcome State Fault Refusal :=
  .next <|
  if len ∉ payLengths then s.raise .badParam
  else if ¬ rawFits a len ∨ ¬ encFits s.encOffset (payLen len) then s.raise .badParam
  else
    (((s.putEnc s.encOffset
          (wireBytes (payLen len) (bitsOf m ++ bitStream (s.rawRange a len)))).setResult0
        (BitVec.ofNat 32 (payLen len))).setResult1 0).done

/-- PAY_DECODE (41_codec R208). -/
def execPayDecode (a len : Nat) (s : State) : Host.Outcome State Fault Refusal :=
  .next <|
  if len ∉ payLengths then s.raise .badParam
  else if ¬ rawFits a len ∨ ¬ encFits s.encOffset (payLen len) then s.raise .badParam
  else
    match firstInvalid (s.encRange s.encOffset (payLen len)) with
    | some j => (s.setResult1 (BitVec.ofNat 32 j)).raise .badEncoding
    | none =>
      let bits := bitStream (symbolsOf (s.encRange s.encOffset (payLen len)))
      (((s.putRaw a (chunks 8 len (bits.drop 2))).setResult0 ((ofBits 2 bits).zeroExtend 32)).setResult1 0).done

end Sys2Proof.Machine
end

