-- ==== Sys2Proof/Machine/Control.lean ====
section
/-! DEFINITION. The meaning of NOP (40_control). A meaning is the completion step of its command: what the
command's rule says, and the completion of R183. -/

namespace Sys2Proof.Machine

/-- NOP (40_control R185). -/
def execNop (s : State) : Host.Outcome State Fault Refusal := .next <| s.done

end Sys2Proof.Machine
end

