-- ==== Sys2Proof/Machine/MessageId.lean ====
section
/-! DEFINITION. The message-ID generator and validator (45_msgid). -/

namespace Sys2Proof.Machine

/-- MID_NEXT (45_msgid R342). -/
def execMidNext (a : Nat) (s : State) : Host.Outcome State Fault Refusal :=
  .next <|
  if Config.nDev ≤ a then s.raise .badParam
  else
    let d := s.midSlot a
    ((s.setResult0 (d.txid.zeroExtend 32)).setMid a { d with txid := d.txid + 1 }).done

/-- MID_VALIDATE (45_msgid R343). -/
def execMidValidate (a : Nat) (s : State) : Host.Outcome State Fault Refusal :=
  .next <|
  if Config.nDev ≤ a then s.raise .badParam
  else
    let i := s.argMsgId
    let d := s.midSlot a
    if d.valid = false then ((s.setMid a { d with last := i, valid := true }).setResult0 1).done
    else if i = d.last then (s.setResult0 3).done
    else if i = d.last + 1 then ((s.setMid a { d with last := i }).setResult0 2).done
    else if d.strict = true then (s.setResult0 4).raise .badMsgId
    else ((s.setMid a { d with last := i }).setResult0 5).done

end Sys2Proof.Machine
end

