-- ==== Sys2Proof/Machine/Pid.lean ====
section
/-! DEFINITION. PID classification (43_packet_layout). -/

namespace Sys2Proof.Machine

/-- The class code of a message kind (43_packet_layout R271, 90_conflicts C5). -/
def pidClass (kind : BitVec 6) : BitVec 3 :=
  if kind = 0x00 ∨ kind = 0x01 ∨ kind = 0x02 ∨ kind = 0x05 then 0
  else if 0x06 ≤ kind ∧ kind ≤ 0x09 then 1
  else if 0x0A ≤ kind ∧ kind ≤ 0x0D then 2
  else if kind = 0x0E ∨ kind = 0x0F then 3
  else 7

/-- The RESULT0 fields of a raw PID (43_packet_layout R270, R272). -/
def pidWord (p : BitVec 16) : BitVec 25 :=
  BitVec.ofBool (p.extractLsb' 12 4 != 0) ++ 0#4 ++ p.extractLsb' 8 4 ++ 0#2 ++ p.extractLsb' 7 1
    ++ p.extractLsb' 6 1 ++ 0#1 ++ pidClass (p.extractLsb' 0 6) ++ 0#2 ++ p.extractLsb' 0 6

/-- PID_INFO (43_packet_layout R272). -/
def execPidInfo (s : State) : Host.Outcome State Fault Refusal :=
  .next <|
  ((s.setResult0 ((pidWord s.argHalf).zeroExtend 32)).setResult1 0).done

end Sys2Proof.Machine
end

