-- ==== Sys2Proof/Machine/Xtea.lean ====
section
/-! DEFINITION. The XTEA cipher core, OPEN_PAYLOAD and the keys (44_xtea). -/

namespace Sys2Proof.Machine

/-- `DELTA` (44_xtea R294). -/
def xteaDelta : Word := 0x9E3779B9

/-- Key word `K[i & 3]` (44_xtea R293, R294). -/
def Key.word (key : Key) (i : Word) : Word :=
  match (i &&& 3).toNat with
  | 0 => key.w0
  | 1 => key.w1
  | 2 => key.w2
  | _ => key.w3

/-- The mixing of a half-block (44_xtea R294). -/
def xteaMix (v : Word) : Word := ((v <<< 4) ^^^ (v >>> 5)) + v

/-- `n` cycles of enciphering from the running sum `sum` (44_xtea R294). -/
def xteaEncFrom (key : Key) : (n : Nat) → (sum v0 v1 : Word) → Word × Word
  | 0, _, v0, v1 => (v0, v1)
  | n + 1, sum, v0, v1 =>
    let v0' := v0 + (xteaMix v1 ^^^ (sum + key.word sum))
    let sum' := sum + xteaDelta
    let v1' := v1 + (xteaMix v0' ^^^ (sum' + key.word (sum' >>> 11)))
    xteaEncFrom key n sum' v0' v1'

/-- `n` cycles of deciphering from the running sum `sum` (44_xtea R295). -/
def xteaDecFrom (key : Key) : (n : Nat) → (sum v0 v1 : Word) → Word × Word
  | 0, _, v0, v1 => (v0, v1)
  | n + 1, sum, v0, v1 =>
    let v1' := v1 - (xteaMix v0 ^^^ (sum + key.word (sum >>> 11)))
    let sum' := sum - xteaDelta
    let v0' := v0 - (xteaMix v1' ^^^ (sum' + key.word sum'))
    xteaDecFrom key n sum' v0' v1'

/-- `XTEA_E(v0, v1, K, N)` (44_xtea R294). -/
def xteaE (key : Key) (n : Nat) (v0 v1 : Word) : Word × Word := xteaEncFrom key n 0 v0 v1

/-- `XTEA_D(v0, v1, K, N)` (44_xtea R295). -/
def xteaD (key : Key) (n : Nat) (v0 v1 : Word) : Word × Word :=
  xteaDecFrom key n (xteaDelta * BitVec.ofNat 32 n) v0 v1

/-- Apply a block function to the first `n` blocks of 8 bytes, each on its own (44_xtea R292). -/
def mapBlocks (f : Word → Word → Word × Word) : (n : Nat) → List Byte → List Byte
  | 0, _ => []
  | n + 1, bs =>
    let r := f (be32 bs) (be32 (bs.drop 4))
    bytesOf r.1 ++ bytesOf r.2 ++ mapBlocks f n (bs.drop 8)

/-- The cycles of one round, `cpr` (10_state R46). -/
def State.cyclesPerRound (s : State) : Nat := if s.cpr = 0 then 256 else s.cpr.toNat

/-- The cycles of a command with method `m` (44_xtea R291). -/
def State.cycles (s : State) (m : BitVec 2) : Nat := m.toNat * s.cyclesPerRound

/-- A legal length and range of an XTEA command (44_xtea R296). -/
abbrev blockRangeOk (a b : Nat) : Prop := b ≠ 0 ∧ b % 8 = 0 ∧ rawFits a b

/-- Method 0 without CTRL.ALLOW_NOENC (44_xtea R296, 10_state R35). -/
abbrev State.methodRefused (s : State) (m : BitVec 2) : Prop := m = 0 ∧ s.allowNoenc = false

/-- The old key while OLD_VALID = 0 (44_xtea R296). -/
abbrev State.keyRefused (s : State) (m : BitVec 2) (k : KeySel) : Prop :=
  m ≠ 0 ∧ k = .old ∧ s.oldValid = false

/-- XTEA_ENC (44_xtea R296). -/
def execXteaEnc (a b : Nat) (m : BitVec 2) (k : KeySel) (s : State) : Host.Outcome State Fault Refusal :=
  .next <|
  if ¬ blockRangeOk a b then s.raise .badParam
  else if s.methodRefused m then s.raise .badParam
  else if s.keyRefused m k then s.raise .badParam
  else if m = 0 then s.done
  else (s.putRaw a (mapBlocks (xteaE (s.key k) (s.cycles m)) (b / 8) (s.rawRange a b))).done

/-- XTEA_DEC (44_xtea R297). -/
def execXteaDec (a b : Nat) (m : BitVec 2) (k : KeySel) (s : State) : Host.Outcome State Fault Refusal :=
  .next <|
  if ¬ blockRangeOk a b then s.raise .badParam
  else if s.methodRefused m then s.raise .badParam
  else if s.keyRefused m k then s.raise .badParam
  else if m = 0 then s.done
  else (s.putRaw a (mapBlocks (xteaD (s.key k) (s.cycles m)) (b / 8) (s.rawRange a b))).done

/-- `crc_ok(P)`: the payload's first byte is the CRC of the rest, started from CRC_INIT (44_xtea R298). -/
def State.payloadCrcOk (s : State) (p : List Byte) : Bool :=
  (p.headD 0).zeroExtend 16 == s.crc p.tail s.crcInit

/-- The keys OPEN_PAYLOAD tries, in order (44_xtea R298). -/
def State.keyOrder (s : State) (k : KeySel) : List KeySel :=
  if k = .old ∨ s.oldValid = true then [k, otherKey k] else [k]

/-- The first key of a list under which the ciphertext opens: its place in the list, the key and the
plaintext (44_xtea R298). -/
def State.openUnder (s : State) (m : BitVec 2) (c : List Byte) :
    (t : Nat) → List KeySel → Option (Nat × KeySel × List Byte)
  | _, [] => none
  | t, k :: ks =>
    let p := mapBlocks (xteaD (s.key k) (s.cycles m)) (c.length / 8) c
    if s.payloadCrcOk p then some (t, k, p) else s.openUnder m c (t + 1) ks

/-- OPEN_PAYLOAD (44_xtea R298). -/
def execOpenPayload (a b : Nat) (m : BitVec 2) (k : KeySel) (s : State) : Host.Outcome State Fault Refusal :=
  .next <|
  if ¬ blockRangeOk a b ∨ ¬ s.storedCrcOk then s.raise .badParam
  else if s.methodRefused m then s.raise .badParam
  else if s.keyRefused m k then s.raise .badParam
  else if m = 0 then
    if s.payloadCrcOk (s.rawRange a b) then (s.setResult0 0).done else s.raise .crcFail
  else
    match s.openUnder m (s.rawRange a b) 0 (s.keyOrder k) with
    | some (t, key, p) =>
      ((s.putRaw a p).setResult0 ((m ++ BitVec.ofNat 1 t ++ BitVec.ofBool key.toK).zeroExtend 32)).done
    | none => s.raise .crcFail

/-- KEY_ROTATE (44_xtea R299). -/
def execKeyRotate (s : State) : Host.Outcome State Fault Refusal :=
  .next <|
  State.done { s with oldKey := s.curKey, curKey := { s.curKey with w3 := s.arg0 }, oldValid := true }

/-- KEY_COMMIT (44_xtea R300). -/
def execKeyCommit (s : State) : Host.Outcome State Fault Refusal :=
  .next <| State.done { s with oldValid := false }

end Sys2Proof.Machine
end

