-- ==== Sys2Proof/Machine/Dispatch.lean ====
section
/-! DEFINITION. `exec`: the completion step of a command (40_control R181 to R183), one arm per constructor. -/

namespace Sys2Proof.Machine

/-- The completion step of an accepted command. -/
def exec (i : Instr) (s : State) : Host.Outcome State Fault Refusal :=
  match i with
  | .nop => Sys2Proof.Machine.execNop s
  | .encode a b => Sys2Proof.Machine.execEncode a b s
  | .decode a b => Sys2Proof.Machine.execDecode a b s
  | .payEncode a b m => Sys2Proof.Machine.execPayEncode a b m s
  | .payDecode a b => Sys2Proof.Machine.execPayDecode a b s
  | .crcCompute a b k => Sys2Proof.Machine.execCrcCompute a b k s
  | .crcCheck a b k => Sys2Proof.Machine.execCrcCheck a b k s
  | .crcFill a b k => Sys2Proof.Machine.execCrcFill a b k s
  | .pidInfo => Sys2Proof.Machine.execPidInfo s
  | .xteaEnc a b m k => Sys2Proof.Machine.execXteaEnc a b m k s
  | .xteaDec a b m k => Sys2Proof.Machine.execXteaDec a b m k s
  | .openPayload a b m k => Sys2Proof.Machine.execOpenPayload a b m k s
  | .keyRotate => Sys2Proof.Machine.execKeyRotate s
  | .keyCommit => Sys2Proof.Machine.execKeyCommit s
  | .midNext a => Sys2Proof.Machine.execMidNext a s
  | .midValidate a => Sys2Proof.Machine.execMidValidate a s
  | .ackParse a b k => Sys2Proof.Machine.execAckParse a b k s
  | .nackFatal => Sys2Proof.Machine.execNackFatal s
  | .arbStart k => Sys2Proof.Machine.execArbStart k s
  | .arbResend k => Sys2Proof.Machine.execArbResend k s
  | .arbRespond k => Sys2Proof.Machine.execArbRespond k s
  | .arbAbort k => Sys2Proof.Machine.execArbAbort k s

end Sys2Proof.Machine
end

