-- ==== Sys2Proof/Machine/Engine.lean ====
section
/-! DEFINITION. One atomic step of each agent (00_scope R14): the engine, the host, the tick source and the
reset input. -/

namespace Sys2Proof.Machine

/-- The completion step of the latched word (40_control R181): an illegal word completes with ILLEGAL_CMD
and no other effect (30_encoding R149). -/
def runCommand (w : Word) (s : State) : Host.Outcome State Fault Refusal :=
  match decode w with
  | .ok i => exec i s
  | .error _ => .next (s.raise .illegalCmd)

/-- The engine's turn: it completes the accepted command; with none it does nothing (40_control R182,
70_reset_and_hazards R481). -/
def engineTurn (s : State) : Host.Outcome State Fault Refusal :=
  match s.latch with
  | some w => if s.rst then .next s else runCommand w s
  | none => .next s

/-- `rst` is 1 at a clock edge (70_reset_and_hazards R480): every register takes its reset value, an accepted
command is dropped, and the buffers hold new free contents. The environment's schedule, the counters of free
values and the word last read are the model's own and stay (log 10). -/
def State.takeReset (s : State) : State :=
  { State.reset with
    rst := true, busRdata := s.busRdata, inputs := s.inputs, draws := s.draws, resets := s.resets + 1 }

/-- One input (00_scope R14). While `rst` is 1 a host write and a TICK have no effect and a read returns any
value (70_reset_and_hazards R480). -/
def applyInput (i : Input) (s : State) : Host.Outcome State Fault Refusal :=
  match i with
  | .read addr => .next (if s.rst then s.readFree else s.hostRead addr)
  | .write addr v => .next (if s.rst then s else s.hostWrite addr v)
  | .readWrite _ _ => .refused .busConflict
  | .tick => .next (if s.rst then s else s.tick)
  | .rst level => .next (if level then s.takeReset else { s with rst := false })
  | .engine => engineTurn s

/-- The next step: the first input of the schedule, or the engine's turn when the schedule is used up
(00_scope R14, 70_reset_and_hazards R497; log 6). -/
def nextStep (s : State) : Host.Outcome State Fault Refusal :=
  match s.inputs with
  | [] => engineTurn s
  | i :: rest => applyInput i { s with inputs := rest }

end Sys2Proof.Machine
end

