-- ==== Sys2Proof/Machine/Step.lean ====
section
/-! DEFINITION. The step function, and how a command word is placed where the next step runs it. -/

namespace Sys2Proof.Machine

/-- One atomic step of the block. -/
def step (s : State) : Host.Outcome State Fault Refusal := nextStep s

/-- `s` with the command word `w` accepted (40_control R180) and the engine's turn next, so that the next
step completes exactly that command (log 7). A command is one 32-bit word (30_encoding R150). -/
def State.withFetchWord (s : State) (nbits w : Nat) : State :=
  { s.accept (BitVec.ofNat 32 (w % 2 ^ nbits)) with rst := false, inputs := .engine :: s.inputs }

end Sys2Proof.Machine
end

