-- ==== Sys2Proof/Safety.lean ====
section
/-! DEFINITION. The terms statements use: which bits of a word a command reads, what a command leaves
unchanged (its frame), the invariant of the block, and safe runs. -/

namespace Sys2Proof

/-- The bits of a command word its command uses: RSV and OP always, and the operand fields of
30_encoding R148 (A 0x0000FF00, B 0x01FF0000, M 0x06000000, K 0x08000000). -/
def Instr.usedMask : Instr → Word
  | .nop | .pidInfo | .keyRotate | .keyCommit | .nackFatal => 0xF00000FF
  | .encode .. | .decode .. | .payDecode .. => 0xF1FFFFFF
  | .payEncode .. => 0xF7FFFFFF
  | .crcCompute .. | .crcCheck .. | .crcFill .. | .ackParse .. => 0xF9FFFFFF
  | .xteaEnc .. | .xteaDec .. | .openPayload .. => 0xFFFFFFFF
  | .midNext .. | .midValidate .. => 0xF000FFFF
  | .arbStart .. | .arbResend .. | .arbRespond .. | .arbAbort .. => 0xF80000FF

end Sys2Proof

namespace Sys2Proof.Machine

/-! ### Frames -/

/-- The completion of a command with code `e` (40_control R183), where `events` are the channel bits of
INT_STATUS the command also raised (46_acknack R381). -/
structure Completed (e : ErrCode) (events : BitVec 5) (s t : State) : Prop where
  latch : t.latch = none
  err : t.err = e
  lastOp : t.lastOp = s.lastOp
  intStatus : t.intStatus = s.intStatus ||| (if e = .none then 0b00001 else 0b00011) ||| events

/-- What no command writes: the registers only the host writes (10_state R38, 70_reset_and_hazards R491),
the ports and the model's own fields. -/
structure SameHost (s t : State) : Prop where
  allowNoenc : t.allowNoenc = s.allowNoenc
  arg0 : t.arg0 = s.arg0
  intEnable : t.intEnable = s.intEnable
  crcPoly : t.crcPoly = s.crcPoly
  crcInit : t.crcInit = s.crcInit
  crcOrder : t.crcOrder = s.crcOrder
  cpr : t.cpr = s.cpr
  rst : t.rst = s.rst
  busRdata : t.busRdata = s.busRdata
  inputs : t.inputs = s.inputs
  draws : t.draws = s.draws
  resets : t.resets = s.resets

/-- The parts of the state a command may write. -/
inductive Part where
  | result0
  | result1
  /-- CUR_KEY, OLD_KEY and OLD_VALID. -/
  | keys
  /-- PARSE0 and PARSE1. -/
  | parse
  /-- The registers of a channel. -/
  | chan (n : Chan)
  /-- A message-ID slot. -/
  | slot (k : Nat)
  /-- The `n` buffer bytes from the window offset `base`. -/
  | bytes (base n : Nat)
  deriving DecidableEq, Repr

/-- The frame of a command: it completed with code `e` and channel events `events`, and of everything else
only the listed parts may differ. -/
structure Frame (e : ErrCode) (events : BitVec 5) (parts : List Part) (s t : State) : Prop where
  completed : Completed e events s t
  host : SameHost s t
  result0 : .result0 ∉ parts → t.result0 = s.result0
  result1 : .result1 ∉ parts → t.result1 = s.result1
  keys : .keys ∉ parts → t.curKey = s.curKey ∧ t.oldKey = s.oldKey ∧ t.oldValid = s.oldValid
  parse : .parse ∉ parts → t.parse = s.parse
  chan : ∀ n, .chan n ∉ parts → t.chan n = s.chan n
  slot : ∀ k, .slot k ∉ parts → t.midSlot k = s.midSlot k
  bytes : ∀ x, (∀ base n, .bytes base n ∈ parts → x < base ∨ base + n ≤ x) → t.readByte x = s.readByte x

/-! ### The invariant -/

/-- What 46_acknack R374 and 10_state R53 to R55 say of a channel in every reachable state. REMAIN in WAIT is
left out: log 12. -/
abbrev Channel.Legal (n : Chan) (c : Channel) : Prop :=
  c.attempt.toNat ≤ 8 ∧
  (c.state.inProgress = true → 1 ≤ c.attempt.toNat ∧ c.result = .none ∧ c.cause = .none) ∧
  (c.state = .retryDue ∨ c.state = .pause → c.attempt.toNat < 8) ∧
  (c.state = .pause → c.remain ≠ 0) ∧
  (c.state ≠ .wait ∧ c.state ≠ .pause → c.remain = 0) ∧
  (c.state = .idle → c.attempt = 0 ∧ c.result = .none ∧ c.cause = .none) ∧
  (c.state = .doneOk → c.result = .success ∧ c.cause = .ack) ∧
  (c.state = .doneFail → c.result = c.txType.failResult ∧ c.cause ≠ .none ∧ c.cause ≠ .ack) ∧
  (n = .c0 → c.txType = .single) ∧
  (n = .c1 ∧ c.state ≠ .idle → c.txType ≠ .single)

/-- What 10_state R50, R51 and 46_acknack R371 say of the parse latch. -/
abbrev Parse.Legal (p : Parse) : Prop :=
  p.handle.toNat < 12 ∧ (p.isNack = false → p.reason = 0) ∧ (handleSize p.handle = 0 → p.value = 0)

/-- The invariant of the block: the tables are in canonical form, CRC_ORDER is legal (10_state R45), the
channels and the parse latch are legal, while BUSY STATUS.ERR is 0 and LASTOP is the latched opcode
(40_control R180), and no command is in progress while `rst` is 1 (70_reset_and_hazards R480). -/
abbrev State.Inv (s : State) : Prop :=
  Memory.wf s.mem = true ∧ MidTable.wf s.mid = true ∧
  1 ≤ s.crcOrder.toNat ∧ s.crcOrder.toNat ≤ 16 ∧
  Channel.Legal .c0 s.ch0 ∧ Channel.Legal .c1 s.ch1 ∧ Parse.Legal s.parse ∧
  (s.latch ≠ none → s.err = .none ∧ s.latch.map (fun w => w.extractLsb' 0 8) = some s.lastOp) ∧
  (s.rst = true → s.latch = none)

/-! ### Safe runs -/

/-- A run of `k` steps is safe when it neither faults nor refuses: the host never asserts `bus_we` and
`bus_re` together (10_state R30). -/
def safeRun (k : Nat) (s : State) : Prop := ∃ t, Sys2Proof.core.run k s = .next t

end Sys2Proof.Machine
end

