-- ==== Sys2Proof/Certificates/Slice0/Obligations.lean ====
section
/-! DEFINITION. The statements for the provers. The numbers are the spec's own: RAW_BUF starts at window
offset 0x800 and ENC_BUF at 0xC00 (20_memory R102), ARG0[7:0] is `arg0.toNat % 256`, and so on. A command's
statement gives its result AND its frame, `Frame code events parts s t`: it completed with that code
(40_control R183), and nothing but the listed parts differs. In the statements about `step` the list
`State.inputs` says which agent moves next; that list is the model's own form of 00_scope R14 (log 6). -/

namespace Sys2Proof.Machine

/-! ### Reference functions: the spec's formulas in natural numbers -/

/-- The opcodes of 30_encoding R147. -/
def refOpcodes : List Nat :=
  [0x00, 0x01, 0x02, 0x03, 0x04, 0x08, 0x09, 0x0A, 0x0C, 0x10, 0x11, 0x12, 0x14, 0x15, 0x18, 0x19, 0x20, 0x21,
    0x24, 0x25, 0x26, 0x27]

/-- The encoding line of a command's rule: its opcode, and that every word with the instruction's used bits is
the instruction, whatever the ignored fields hold. -/
def refEncoding (op : Nat) (i : Instr) : Prop :=
  (encode i).toNat % 256 = op ∧
  (i.wellFormed = true → ∀ w : Word, w &&& i.usedMask = encode i → decode w = .ok i)

/-- One bit of 42_crc R240, on natural numbers. -/
def refCrcBit (n p c : Nat) (b : Bool) : Nat :=
  if (c / 2 ^ (n - 1)) % 2 = (if b then 0 else 1) then ((2 * c) % 2 ^ n) ^^^ (p % 2 ^ n) else (2 * c) % 2 ^ n

/-- 42_crc R240: `for each byte, for i from 7 down to 0`. -/
def refCrc (n p start : Nat) (bytes : List Byte) : Nat :=
  bytes.foldl (fun c v => [7, 6, 5, 4, 3, 2, 1, 0].foldl (fun c i => refCrcBit n p c (v.getLsbD i)) c)
    (start % 2 ^ n)

/-- The CRC of `len` bytes from window offset `addr`, under the CRC_ORDER and CRC_POLY registers. -/
def refCrcOfBytes (s : State) (start : BitVec 16) (addr len : Nat) : Nat :=
  refCrc s.crcOrder.toNat s.crcPoly.toNat start.toNat ((List.range len).map fun i => s.readByte (addr + i))

/-- The start value of 42_crc R241. -/
def refStart (s : State) : StartSel → BitVec 16
  | .crcInit => s.crcInit
  | .arg0 => BitVec.ofNat 16 s.arg0.toNat

/-- The class code of 43_packet_layout R271. -/
def refPidClass (kind : Nat) : Nat :=
  if kind ∈ [0x00, 0x01, 0x02, 0x05] then 0
  else if 0x06 ≤ kind ∧ kind ≤ 0x09 then 1
  else if 0x0A ≤ kind ∧ kind ≤ 0x0D then 2
  else if kind = 0x0E ∨ kind = 0x0F then 3
  else 7

/-- `K[j]` of 44_xtea R293. -/
def refKeyWord (key : Key) (j : Nat) : Word := [key.w0, key.w1, key.w2, key.w3].getD j 0

/-- One pass through the loop of 44_xtea R294, on (sum, v0, v1). -/
def refEncCycle (key : Key) (x : Word × Word × Word) : Word × Word × Word :=
  let sum := x.1
  let v0 := x.2.1 + ((((x.2.2 <<< 4) ^^^ (x.2.2 >>> 5)) + x.2.2) ^^^ (sum + refKeyWord key (sum.toNat % 4)))
  let sum' := sum + 0x9E3779B9
  let v1 := x.2.2 + ((((v0 <<< 4) ^^^ (v0 >>> 5)) + v0) ^^^ (sum' + refKeyWord key (sum'.toNat / 2048 % 4)))
  (sum', v0, v1)

/-- One pass through the loop of 44_xtea R295, on (sum, v0, v1). -/
def refDecCycle (key : Key) (x : Word × Word × Word) : Word × Word × Word :=
  let sum := x.1
  let v1 := x.2.2 - ((((x.2.1 <<< 4) ^^^ (x.2.1 >>> 5)) + x.2.1) ^^^ (sum + refKeyWord key (sum.toNat / 2048 % 4)))
  let sum' := sum - 0x9E3779B9
  let v0 := x.2.1 - ((((v1 <<< 4) ^^^ (v1 >>> 5)) + v1) ^^^ (sum' + refKeyWord key (sum'.toNat % 4)))
  (sum', v0, v1)

/-- The cycle count `M * cpr` of 44_xtea R291. -/
def refCycles (s : State) (m : BitVec 2) : Nat := m.toNat * (if s.cpr.toNat = 0 then 256 else s.cpr.toNat)

/-- The key of 44_xtea R293. -/
def refKey (s : State) : KeySel → Key
  | .current => s.curKey
  | .old => s.oldKey

/-- A legal length and range of an XTEA command (44_xtea R296). -/
def refBlocksOk (a b : Nat) : Prop := b ≠ 0 ∧ b % 8 = 0 ∧ a + b ≤ 256

/-- The checks on method and key that an XTEA command passes (44_xtea R296). -/
def refMethodOk (s : State) (m : BitVec 2) (k : KeySel) : Prop :=
  (m = 0 → s.allowNoenc = true) ∧ (m ≠ 0 → k = .old → s.oldValid = true)

/-- Byte `i` of the range at `RAW[a]` after its blocks are deciphered under key `k` (44_xtea R292, R298). -/
def refPlainByte (s : State) (a : Nat) (m : BitVec 2) (k : KeySel) (i : Nat) : Byte :=
  let r := xteaD (refKey s k) (refCycles s m) (s.bufferWord (0x800 + a + 8 * (i / 8)))
    (s.bufferWord (0x800 + a + 8 * (i / 8) + 4))
  (if i % 8 < 4 then r.1 else r.2).extractLsb' (24 - 8 * (i % 4)) 8

/-- `crc_ok` of 44_xtea R298 on the `b` bytes `p`. -/
def refPayloadOk (s : State) (b : Nat) (p : Nat → Byte) : Prop :=
  (p 0).toNat
    = refCrc s.crcOrder.toNat s.crcPoly.toNat s.crcInit.toNat ((List.range (b - 1)).map fun i => p (i + 1))

/-- `size(h)` of 46_acknack R371. -/
def refHandleSize (h : Nat) : Nat := if h ∈ [1, 3, 4, 5, 6, 9, 10, 11] then 4 else 0

/-- The `K` bit of a frame kind as a number (46_acknack R369). -/
def refNack : FrameKind → Nat
  | .ack => 0
  | .nack => 1

/-- In progress: WAIT, RETRY_DUE or PAUSE (46_acknack R374). -/
def refInProgress (c : Channel) : Prop := c.state = .wait ∨ c.state = .retryDue ∨ c.state = .pause

/-- The INT_STATUS bit of a channel, bit 3 + n (46_acknack R381). -/
def refEvent : Chan → BitVec 5
  | .c0 => 0b01000
  | .c1 => 0b10000

/-- The host reads of the register map (10_state R33 to R58) as numbers, built from the field positions of
each register; every other offset reads 0. `off` is a multiple of 4. -/
def refRead (s : State) (off : Nat) : Nat :=
  let arb (c : Channel) (j : Nat) : Nat :=
    match j with
    | 0 => c.toBase.toNat + 2 ^ 16 * c.toStep.toNat
    | 1 => c.state.code.toNat + 2 ^ 4 * c.attempt.toNat + 2 ^ 8 * c.txType.code.toNat + 2 ^ 16 * c.expId.toNat
    | 2 => c.remain.toNat
    | _ => c.result.code.toNat + 2 ^ 8 * c.cause.code.toNat + 2 ^ 12 * c.handle.toNat + 2 ^ 16 * c.reason.toNat
  if off = 0x000 then 0x4F4E0001
  else if off = 0x004 then s.allowNoenc.toNat
  else if off = 0x008 then
    s.latch.isSome.toNat + 2 * (if s.err = .none then 0 else 1) + 2 ^ 8 * s.err.code.toNat
      + 2 ^ 16 * s.lastOp.toNat
  else if off = 0x010 then s.arg0.toNat
  else if off = 0x018 then s.result0.toNat
  else if off = 0x01C then s.result1.toNat
  else if off = 0x020 then s.intStatus.toNat
  else if off = 0x024 then s.intEnable.toNat
  else if off = 0x030 then s.crcPoly.toNat
  else if off = 0x034 then s.crcInit.toNat
  else if off = 0x038 then s.crcOrder.toNat
  else if off = 0x03C then s.cpr.toNat
  else if 0x040 ≤ off ∧ off ≤ 0x04C then (refKeyWord s.curKey ((off - 0x040) / 4)).toNat
  else if 0x050 ≤ off ∧ off ≤ 0x05C then (refKeyWord s.oldKey ((off - 0x050) / 4)).toNat
  else if off = 0x060 then s.oldValid.toNat
  else if off = 0x068 then
    s.parse.valid.toNat + 2 * s.parse.isNack.toNat
      + 4 * (if s.parse.isNack = true ∧ 128 ≤ s.parse.reason.toNat then 1 else 0) + 2 ^ 4 * s.parse.msgId.toNat
      + 2 ^ 16 * s.parse.handle.toNat + 2 ^ 24 * s.parse.reason.toNat
  else if off = 0x06C then s.parse.value.toNat
  else if 0x080 ≤ off ∧ off ≤ 0x08C then arb s.ch0 ((off - 0x080) / 4)
  else if 0x090 ≤ off ∧ off ≤ 0x09C then arb s.ch1 ((off - 0x090) / 4)
  else if 0x400 ≤ off ∧ off < 0x400 + 4 * Config.nDev then
    let d := s.midSlot ((off - 0x400) / 4)
    d.last.toNat + 2 ^ 12 * d.valid.toNat + 2 ^ 13 * d.strict.toNat + 2 ^ 16 * d.txid.toNat
  else if (0x800 ≤ off ∧ off < 0x900) ∨ (0xC00 ≤ off ∧ off < 0xC80) then
    2 ^ 24 * (s.readByte off).toNat + 2 ^ 16 * (s.readByte (off + 1)).toNat
      + 2 ^ 8 * (s.readByte (off + 2)).toNat + (s.readByte (off + 3)).toNat
  else 0

/-- The word offset of a bus address: bits [1:0] are ignored (20_memory R104). -/
def refOffset (addr : BusAddr) : Nat := addr.toNat / 4 * 4

/-- The writable bits of an RW register or buffer word by offset, 0 for every other offset: the fields of
10_state R35 to R58 that are marked RW in R33, INT_ENABLE left out. -/
def refWritable (off : Nat) : Nat :=
  if off = 0x004 ∨ off = 0x060 then 0x1
  else if off = 0x030 ∨ off = 0x034 then 0xFFFF
  else if off = 0x038 then 0x1F
  else if off = 0x03C then 0xFF
  else if off = 0x010 ∨ (0x040 ≤ off ∧ off ≤ 0x05C) ∨ off = 0x080 ∨ off = 0x090 then 0xFFFFFFFF
  else if 0x400 ≤ off ∧ off < 0x400 + 4 * Config.nDev then 0x0FFF3FFF
  else if (0x800 ≤ off ∧ off < 0x900) ∨ (0xC00 ≤ off ∧ off < 0xC80) then 0xFFFFFFFF
  else 0

/-- The offsets of what a command may write, in the order of 70_reset_and_hazards R491: RESULT0 and RESULT1,
the keys, KEY_STATUS, PARSE0 and PARSE1, the ARBn registers, MID[s] with s < N_DEV, RAW_BUF and ENC_BUF. -/
def refCommandWritten (off : Nat) : Prop :=
  off = 0x018 ∨ off = 0x01C ∨ (0x040 ≤ off ∧ off ≤ 0x05C) ∨ off = 0x060 ∨ off = 0x068 ∨ off = 0x06C ∨
    (0x080 ≤ off ∧ off ≤ 0x09C) ∨ (0x400 ≤ off ∧ off < 0x400 + 4 * Config.nDev) ∨
    (0x800 ≤ off ∧ off < 0x900) ∨ (0xC00 ≤ off ∧ off < 0xC80)

/-- The reset values of 10_state R63 by offset; every slot holds 0x00002000, everything else 0. -/
def refResetValue (off : Nat) : Nat :=
  if off = 0x000 then 0x4F4E0001
  else if off = 0x030 then 0x0007
  else if off = 0x034 then 0x00FF
  else if off = 0x038 then 8
  else if off = 0x03C then 0x20
  else if 0x400 ≤ off ∧ off < 0x400 + 4 * Config.nDev then 0x00002000
  else 0

/-- Offsets outside the two buffers. -/
def refNotBuffer (off : Nat) : Prop := ¬ (0x800 ≤ off ∧ off < 0x900) ∧ ¬ (0xC00 ≤ off ∧ off < 0xC80)

/-- `n` MID_NEXT commands on slot `a`: the state after them and what each left in RESULT0. -/
def midNextRun (a : Nat) : (n : Nat) → State → State × List Word
  | 0, s => (s, [])
  | n + 1, s =>
    match exec (.midNext a) s with
    | .next t =>
      let r := midNextRun a n t
      (r.1, t.result0 :: r.2)
    | _ => (s, [])

/-- Channel `n` waits until its timer has run out: REMAIN TICK events. -/
def waitOut (n : Chan) (s : State) : State := State.tick^[(s.chan n).remain.toNat] s

/-- `k` times: channel `n` waits until its timer has run out, and the host issues ARB_RESEND. -/
def resendRun (n : Chan) : (k : Nat) → State → State
  | 0, s => s
  | k + 1, s =>
    match exec (.arbResend n) (waitOut n (resendRun n k s)) with
    | .next t => t
    | _ => s

/-- A transition of a channel that 46_acknack R374 lists, from `c` to `c'`. -/
def refTransition (c c' : Channel) : Prop :=
  ((c.state = .idle ∨ c.state = .doneOk ∨ c.state = .doneFail) ∧ c'.state = .wait ∧ c'.attempt = 1
    ∧ c.toBase ≠ 0) ∨
  (c.state = .wait ∧ c'.state = .retryDue ∧ c.attempt.toNat < 8 ∧ c'.attempt = c.attempt) ∨
  (c.state = .pause ∧ c'.state = .retryDue ∧ c'.attempt = c.attempt) ∨
  (c.state = .retryDue ∧ c'.state = .wait ∧ c'.attempt = c.attempt + 1) ∨
  (refInProgress c ∧ c'.state = .doneOk ∧ c'.result = .success ∧ c'.cause = .ack ∧ c'.attempt = c.attempt) ∨
  (refInProgress c ∧ c'.state = .doneFail ∧ c'.result = c.txType.failResult ∧ c'.attempt = c.attempt ∧
    ((c'.cause = .timeOut ∧ c.state = .wait ∧ 8 ≤ c.attempt.toNat) ∨ c'.cause = .nackFatal ∨
      (c'.cause = .nackExhausted ∧ 8 ≤ c.attempt.toNat) ∨ c'.cause = .aborted)) ∨
  ((c.state = .wait ∨ c.state = .retryDue) ∧ c'.state = .pause ∧ c.attempt.toNat < 8 ∧ c'.attempt = c.attempt)

end Sys2Proof.Machine

open Sys2Proof Sys2Proof.Machine

/-! ### Encoding -/

/-- Every well-formed instruction is read back from its own word (30_encoding R140, R147, R148). -/
def Obligations.DecodeOfEncodeIsTheInstruction : Prop :=
  ∀ i : Instr, i.wellFormed = true → decode (encode i) = .ok i

/-- A decoded instruction is well formed, and its own word has the bits its command uses. -/
def Obligations.EncodeOfDecodeKeepsTheUsedBits : Prop :=
  ∀ (w : Word) (i : Instr), decode w = .ok i → i.wellFormed = true ∧ encode i = w &&& i.usedMask

/-- 40_control R181, 30_encoding R147: a word decodes exactly when RSV is 0 and OP is assigned. -/
def Obligations.DecodeAcceptsExactlyTheOpcodeMap : Prop :=
  ∀ w : Word, (∃ i, decode w = .ok i) ↔ w.toNat / 2 ^ 28 = 0 ∧ w.toNat % 256 ∈ refOpcodes

/-- 30_encoding R146: the fields a command does not use have no effect: any word with the same used bits is
the same command. -/
def Obligations.UnusedFieldsAreIgnored : Prop :=
  ∀ (w w' : Word) (i : Instr), decode w = .ok i → w' &&& i.usedMask = w &&& i.usedMask → decode w' = .ok i

/-- Six command words of 95_test_vectors decode to the commands written beside them there. -/
def Obligations.SpecWordsDecode : Prop :=
  decode 0x06100003 = .ok (.payEncode 0 16 3) ∧ decode 0x08052008 = .ok (.crcCompute 0x20 5 .arg0) ∧
  decode 0x0A080012 = .ok (.openPayload 0 8 1 .old) ∧ decode 0x00000119 = .ok (.midValidate 1) ∧
  decode 0x00071020 = .ok (.ackParse 0x10 7 .ack) ∧ decode 0x08000027 = .ok (.arbAbort .c1)

/-! ### The lifecycle of a command -/

/-- A step runs the decoded instruction: on the engine's turn (an `engine` input, which the step consumes, or
no input left), an accepted word that decodes to `i` is completed by `exec i`. -/
def Obligations.StepRunsTheDecodedCommand : Prop :=
  ∀ (s : State) (w : Word) (i : Instr), s.latch = some w → s.rst = false → decode w = .ok i →
    (s.inputs = [] → step s = exec i s) ∧
    (∀ rest, s.inputs = .engine :: rest → step s = exec i { s with inputs := rest })

/-- 40_control R180: acceptance of a command word, and no acceptance while BUSY. -/
def Obligations.CmdWriteIsAcceptedOnlyWhenIdle : Prop :=
  ∀ (s : State) (addr : BusAddr) (w : Word) (rest : List Input),
    s.inputs = .write addr w :: rest → s.rst = false → refOffset addr = 0x00C →
    (s.latch = none → step s = .next
      { s with inputs := rest, latch := some w, err := .none, lastOp := BitVec.ofNat 8 w.toNat }) ∧
    (s.latch ≠ none → step s = .next { s with inputs := rest, intStatus := s.intStatus ||| 0b00100 })

/-- 30_encoding R149: an illegal word is accepted and completes with ILLEGAL_CMD and no other effect. -/
def Obligations.IllegalWordCompletesWithIllegalCmd : Prop :=
  ∀ (s : State) (addr : BusAddr) (w : Word) (rest : List Input),
    s.inputs = .write addr w :: .engine :: rest → s.rst = false → refOffset addr = 0x00C → s.latch = none →
    (w.toNat / 2 ^ 28 ≠ 0 ∨ w.toNat % 256 ∉ refOpcodes) →
    ∃ t u, step s = .next t ∧ step t = .next u ∧
      Frame .illegalCmd 0 [] { s with inputs := rest, lastOp := BitVec.ofNat 8 w.toNat } u

/-- 40_control R183: every command, in every state, and every accepted word, legal or not, completes; the
completion writes ERR, ERRF, DONE, the ERR bit and BUSY, and no command writes what only the host writes. -/
def Obligations.EveryCommandCompletes : Prop :=
  let completes (s t : State) : Prop :=
    ∃ e events, Completed e events s t ∧ SameHost s t ∧
      (events = 0 ∨ events = 0b01000 ∨ events = 0b10000) ∧ t.errf = (e != .none) ∧ t.busy = false
  (∀ (i : Instr) (s : State), ∃ t, exec i s = .next t ∧ completes s t) ∧
  (∀ (w : Word) (s : State), ∃ t, runCommand w s = .next t ∧ completes s t)

/-- 40_control R184: a failing command changes only STATUS, INT_STATUS and the results its rule names. -/
def Obligations.FailingCommandChangesNothingElse : Prop :=
  ∀ (i : Instr) (s t : State), exec i s = .next t → t.err ≠ .none →
    Frame t.err 0
      (match i with
        | .decode _ _ | .payDecode _ _ => [.result1]
        | .crcCheck _ _ _ => [.result0, .result1]
        | .midValidate _ => [.result0]
        | _ => []) s t

/-- 40_control R185: NOP. -/
def Obligations.NopOnlyCompletes : Prop :=
  refEncoding 0x00 .nop ∧ ∀ s : State, ∃ t, exec .nop s = .next t ∧ Frame .none 0 [] s t

/-- 10_state R30, 60_exceptions R433: a cycle with `bus_we` and `bus_re` both 1 is refused (log 8), and
nothing else stops a run: with no such cycle to come, every run of any length is safe. -/
def Obligations.BusConflictIsTheOnlyStop : Prop :=
  (∀ (s : State) (addr : BusAddr) (v : Word) (rest : List Input),
    s.inputs = .readWrite addr v :: rest → step s = .refused .busConflict) ∧
  (∀ (k : Nat) (s : State), (∀ a v, Input.readWrite a v ∉ s.inputs) → safeRun k s)

/-! ### Codec -/

/-- 41_codec R204: ENCODE, bit by bit. -/
def Obligations.EncodePacksRawBitsIntoSymbols : Prop :=
  ∀ (s : State) (a n : Nat),
    let d := s.arg0.toNat % 256
    let ns := (n + 5) / 6
    refEncoding 0x01 (.encode a n) ∧
    (n = 0 ∨ 256 < a + (n + 7) / 8 ∨ 128 < d + ns →
      ∃ t, exec (.encode a n) s = .next t ∧ Frame .badParam 0 [] s t) ∧
    (¬ (n = 0 ∨ 256 < a + (n + 7) / 8 ∨ 128 < d + ns) →
      ∃ t, exec (.encode a n) s = .next t ∧ Frame .none 0 [.result0, .result1, .bytes (0xC00 + d) ns] s t ∧
        t.result0 = BitVec.ofNat 32 ns ∧ t.result1 = 0 ∧
        ∀ j < ns, ∃ v : Symbol, t.readByte (0xC00 + d + j) = Config.encTable v ∧
          ∀ b < 6, v.getMsbD b = (decide (6 * j + b < n) &&
            (s.readByte (0x800 + a + (6 * j + b) / 8)).getMsbD ((6 * j + b) % 8)))

/-- 41_codec R205: DECODE, bit by bit, with its errors. -/
def Obligations.DecodeUnpacksSymbolsIntoRawBytes : Prop :=
  ∀ (s : State) (a k : Nat),
    let e := s.arg0.toNat % 256
    let nb := (6 * k + 7) / 8
    refEncoding 0x02 (.decode a k) ∧
    (k = 0 ∨ 128 < e + k ∨ 256 < a + nb →
      ∃ t, exec (.decode a k) s = .next t ∧ Frame .badParam 0 [] s t) ∧
    (¬ (k = 0 ∨ 128 < e + k ∨ 256 < a + nb) →
      (∀ j < k, (∀ v, Config.encTable v ≠ s.readByte (0xC00 + e + j)) →
        (∀ j' < j, ∃ v, Config.encTable v = s.readByte (0xC00 + e + j')) →
        ∃ t, exec (.decode a k) s = .next t ∧ Frame .badEncoding 0 [.result1] s t ∧
          t.result1 = BitVec.ofNat 32 j) ∧
      (∀ v : Nat → Symbol, (∀ j < k, s.readByte (0xC00 + e + j) = Config.encTable (v j)) →
        ∃ t, exec (.decode a k) s = .next t ∧ Frame .none 0 [.result0, .result1, .bytes (0x800 + a) nb] s t ∧
          t.result0 = BitVec.ofNat 32 nb ∧ t.result1 = 0 ∧
          ∀ i < nb, ∀ b < 8, (t.readByte (0x800 + a + i)).getMsbD b =
            (decide (8 * i + b < 6 * k) && (v ((8 * i + b) / 6)).getMsbD ((8 * i + b) % 6))))

/-- 41_codec R207: PAY_ENCODE, bit by bit. -/
def Obligations.PayEncodePacksMethodAndPayload : Prop :=
  ∀ (s : State) (a len : Nat) (m : BitVec 2),
    let d := s.arg0.toNat % 256
    let ns := (8 * len + 2 + 5) / 6
    let legal := len ∈ [8, 16, 24, 32] ∧ a + len ≤ 256 ∧ d + ns ≤ 128
    refEncoding 0x03 (.payEncode a len m) ∧
    (¬ legal → ∃ t, exec (.payEncode a len m) s = .next t ∧ Frame .badParam 0 [] s t) ∧
    (legal →
      ∃ t, exec (.payEncode a len m) s = .next t ∧
        Frame .none 0 [.result0, .result1, .bytes (0xC00 + d) ns] s t ∧
        t.result0 = BitVec.ofNat 32 ns ∧ t.result1 = 0 ∧
        ∀ j < ns, ∃ v : Symbol, t.readByte (0xC00 + d + j) = Config.encTable v ∧
          ∀ b < 6, v.getMsbD b =
            if 6 * j + b < 2 then m.getMsbD (6 * j + b)
            else decide (6 * j + b - 2 < 8 * len) &&
              (s.readByte (0x800 + a + (6 * j + b - 2) / 8)).getMsbD ((6 * j + b - 2) % 8))

/-- 41_codec R208: PAY_DECODE, bit by bit, with its errors; the pad bits are ignored. -/
def Obligations.PayDecodeUnpacksMethodAndPayload : Prop :=
  ∀ (s : State) (a len : Nat),
    let e := s.arg0.toNat % 256
    let ns := (8 * len + 2 + 5) / 6
    let legal := len ∈ [8, 16, 24, 32] ∧ a + len ≤ 256 ∧ e + ns ≤ 128
    refEncoding 0x04 (.payDecode a len) ∧
    (¬ legal → ∃ t, exec (.payDecode a len) s = .next t ∧ Frame .badParam 0 [] s t) ∧
    (legal →
      (∀ j < ns, (∀ v, Config.encTable v ≠ s.readByte (0xC00 + e + j)) →
        (∀ j' < j, ∃ v, Config.encTable v = s.readByte (0xC00 + e + j')) →
        ∃ t, exec (.payDecode a len) s = .next t ∧ Frame .badEncoding 0 [.result1] s t ∧
          t.result1 = BitVec.ofNat 32 j) ∧
      (∀ v : Nat → Symbol, (∀ j < ns, s.readByte (0xC00 + e + j) = Config.encTable (v j)) →
        ∃ t, exec (.payDecode a len) s = .next t ∧
          Frame .none 0 [.result0, .result1, .bytes (0x800 + a) len] s t ∧
          t.result0 = BitVec.ofNat 32 ((v 0).toNat / 16) ∧ t.result1 = 0 ∧
          ∀ i < len, ∀ b < 8, (t.readByte (0x800 + a + i)).getMsbD b =
            (v ((2 + 8 * i + b) / 6)).getMsbD ((2 + 8 * i + b) % 6)))

/-- 41_codec R209: both round trips of the codec. -/
def Obligations.CodecRoundTrips : Prop :=
  (∀ (s : State) (a a' len : Nat) (m : BitVec 2), len ∈ [8, 16, 24, 32] → a + len ≤ 256 → a' + len ≤ 256 →
    s.arg0.toNat % 256 + (8 * len + 2 + 5) / 6 ≤ 128 →
    ∃ t u, exec (.payEncode a len m) s = .next t ∧ exec (.payDecode a' len) t = .next u ∧ u.err = .none ∧
      u.result0 = m.zeroExtend 32 ∧
      ∀ i < len, u.readByte (0x800 + a' + i) = s.readByte (0x800 + a + i)) ∧
  (∀ (s : State) (a a' n : Nat), n % 8 = 0 → 0 < n → n ≤ 504 → a + n / 8 ≤ 256 →
    s.arg0.toNat % 256 + (n + 5) / 6 ≤ 128 → a' + (6 * ((n + 5) / 6) + 7) / 8 ≤ 256 →
    ∃ t u, exec (.encode a n) s = .next t ∧ exec (.decode a' ((n + 5) / 6)) t = .next u ∧ u.err = .none ∧
      (∀ i < n / 8, u.readByte (0x800 + a' + i) = s.readByte (0x800 + a + i)) ∧
      (n % 24 = 0 → u.result0 = BitVec.ofNat 32 (n / 8)) ∧
      (n % 24 ≠ 0 → u.result0 = BitVec.ofNat 32 (n / 8 + 1) ∧ u.readByte (0x800 + a' + n / 8) = 0))

/-! ### CRC -/

/-- 42_crc R240: the CRC function, against the rule's arithmetic on natural numbers. -/
def Obligations.CrcFunctionFollowsItsRule : Prop :=
  (∀ (bytes : List Byte) (start poly : BitVec 16) (n : Nat), 1 ≤ n → n ≤ 16 →
    (crcOf bytes start n poly).toNat = refCrc n poly.toNat start.toNat bytes) ∧
  (∀ (s : State) (bytes : List Byte) (k : StartSel), 1 ≤ s.crcOrder.toNat → s.crcOrder.toNat ≤ 16 →
    (s.crc bytes (s.startValue k)).toNat
      = refCrc s.crcOrder.toNat s.crcPoly.toNat (refStart s k).toNat bytes)

/-- 42_crc R243: CRC_COMPUTE. -/
def Obligations.CrcComputeReportsTheCrc : Prop :=
  ∀ (s : State) (a b : Nat) (k : StartSel), 1 ≤ s.crcOrder.toNat → s.crcOrder.toNat ≤ 16 →
    refEncoding 0x08 (.crcCompute a b k) ∧
    (256 < a + b → ∃ t, exec (.crcCompute a b k) s = .next t ∧ Frame .badParam 0 [] s t) ∧
    (a + b ≤ 256 → ∃ t, exec (.crcCompute a b k) s = .next t ∧ Frame .none 0 [.result0] s t ∧
      t.result0.toNat = refCrcOfBytes s (refStart s k) (0x800 + a) b)

/-- 42_crc R244: CRC_CHECK. -/
def Obligations.CrcCheckComparesTheStoredByte : Prop :=
  ∀ (s : State) (a b : Nat) (k : StartSel), 1 ≤ s.crcOrder.toNat →
    let legal := b ≠ 0 ∧ a + b ≤ 256 ∧ s.crcOrder.toNat ≤ 8
    let c := refCrcOfBytes s (refStart s k) (0x800 + a + 1) (b - 1)
    let stored := (s.readByte (0x800 + a)).toNat
    refEncoding 0x09 (.crcCheck a b k) ∧
    (¬ legal → ∃ t, exec (.crcCheck a b k) s = .next t ∧ Frame .badParam 0 [] s t) ∧
    (legal → ∃ t, exec (.crcCheck a b k) s = .next t ∧
      Frame (if c = stored then .none else .crcFail) 0 [.result0, .result1] s t ∧
      t.result0.toNat = c ∧ t.result1.toNat = stored)

/-- 42_crc R245: CRC_FILL. -/
def Obligations.CrcFillStoresTheCrc : Prop :=
  ∀ (s : State) (a b : Nat) (k : StartSel), 1 ≤ s.crcOrder.toNat →
    let legal := b ≠ 0 ∧ a + b ≤ 256 ∧ s.crcOrder.toNat ≤ 8
    let c := refCrcOfBytes s (refStart s k) (0x800 + a + 1) (b - 1)
    refEncoding 0x0A (.crcFill a b k) ∧
    (¬ legal → ∃ t, exec (.crcFill a b k) s = .next t ∧ Frame .badParam 0 [] s t) ∧
    (legal → ∃ t, exec (.crcFill a b k) s = .next t ∧ Frame .none 0 [.result0, .bytes (0x800 + a) 1] s t ∧
      t.result0.toNat = c ∧ (t.readByte (0x800 + a)).toNat = c)

/-- 42_crc R241: the CRC of a block is the CRC of its second part started, by K = 1, from the CRC of its
first part. -/
def Obligations.CrcContinuesAcrossBlocks : Prop :=
  ∀ (s : State) (a b c : Nat) (k : StartSel), a + b + c ≤ 256 → 1 ≤ s.crcOrder.toNat → s.crcOrder.toNat ≤ 16 →
    ∃ t u v, exec (.crcCompute a b k) s = .next t ∧
      exec (.crcCompute (a + b) c .arg0) { t with arg0 := t.result0 } = .next u ∧
      exec (.crcCompute a (b + c) k) s = .next v ∧ u.result0 = v.result0

/-- 42_crc R244 with 93_implementation_defined G4: under a polynomial whose constant term is not 0, two
states whose blocks differ in exactly one bit have different CRCs. -/
def Obligations.CrcDetectsEverySingleBitError : Prop :=
  ∀ (s s' : State) (a b i j : Nat) (k : StartSel), a + b ≤ 256 → i < b → j < 8 →
    1 ≤ s.crcOrder.toNat → s.crcOrder.toNat ≤ 16 → s.crcPoly.getLsbD 0 = true →
    s'.crcOrder = s.crcOrder → s'.crcPoly = s.crcPoly → s'.crcInit = s.crcInit → s'.arg0 = s.arg0 →
    s'.readByte (0x800 + a + i) = s.readByte (0x800 + a + i) ^^^ BitVec.twoPow 8 j →
    (∀ i' < b, i' ≠ i → s'.readByte (0x800 + a + i') = s.readByte (0x800 + a + i')) →
    ∃ t t', exec (.crcCompute a b k) s = .next t ∧ exec (.crcCompute a b k) s' = .next t' ∧
      t.result0 ≠ t'.result0

/-! ### PID classification -/

/-- 43_packet_layout R272: PID_INFO, as arithmetic on the raw PID. -/
def Obligations.PidInfoClassifiesTheRawPid : Prop :=
  ∀ s : State,
    let p := s.arg0.toNat % 65536
    refEncoding 0x0C (.pidInfo) ∧
    ∃ t, exec .pidInfo s = .next t ∧ Frame .none 0 [.result0, .result1] s t ∧ t.result1 = 0 ∧
      t.result0.toNat = p % 64 + 2 ^ 8 * refPidClass (p % 64) + 2 ^ 12 * (p / 64 % 2) + 2 ^ 13 * (p / 128 % 2)
        + 2 ^ 16 * (p / 256 % 16) + 2 ^ 24 * (if p / 4096 = 0 then 0 else 1)

/-! ### XTEA and keys -/

/-- 44_xtea R294: the encipher function, as an iteration of the rule's loop body. -/
def Obligations.XteaEncipherFollowsItsRule : Prop :=
  ∀ (key : Key) (n : Nat) (v0 v1 : Word), xteaE key n v0 v1 = ((refEncCycle key)^[n] (0, v0, v1)).2

/-- 44_xtea R295: the decipher function, as an iteration of the rule's loop body, and it inverts the
encipher function. -/
def Obligations.XteaDecipherFollowsItsRuleAndInverts : Prop :=
  ∀ (key : Key) (n : Nat) (v0 v1 : Word),
    xteaD key n v0 v1 = ((refDecCycle key)^[n] (BitVec.ofNat 32 (0x9E3779B9 * n), v0, v1)).2 ∧
    xteaD key n (xteaE key n v0 v1).1 (xteaE key n v0 v1).2 = (v0, v1)

/-- 44_xtea R296: XTEA_ENC, block by block. -/
def Obligations.XteaEncEnciphersEachBlock : Prop :=
  ∀ (s : State) (a b : Nat) (m : BitVec 2) (k : KeySel),
    refEncoding 0x10 (.xteaEnc a b m k) ∧
    (¬ refBlocksOk a b ∨ ¬ refMethodOk s m k →
      ∃ t, exec (.xteaEnc a b m k) s = .next t ∧ Frame .badParam 0 [] s t) ∧
    (refBlocksOk a b → refMethodOk s m k → m = 0 →
      ∃ t, exec (.xteaEnc a b m k) s = .next t ∧ Frame .none 0 [] s t) ∧
    (refBlocksOk a b → refMethodOk s m k → m ≠ 0 →
      ∃ t, exec (.xteaEnc a b m k) s = .next t ∧ Frame .none 0 [.bytes (0x800 + a) b] s t ∧
        ∀ j < b / 8,
          let r := xteaE (refKey s k) (refCycles s m) (s.bufferWord (0x800 + a + 8 * j))
            (s.bufferWord (0x800 + a + 8 * j + 4))
          t.bufferWord (0x800 + a + 8 * j) = r.1 ∧ t.bufferWord (0x800 + a + 8 * j + 4) = r.2)

/-- 44_xtea R297: XTEA_DEC, block by block. -/
def Obligations.XteaDecDeciphersEachBlock : Prop :=
  ∀ (s : State) (a b : Nat) (m : BitVec 2) (k : KeySel),
    refEncoding 0x11 (.xteaDec a b m k) ∧
    (¬ refBlocksOk a b ∨ ¬ refMethodOk s m k →
      ∃ t, exec (.xteaDec a b m k) s = .next t ∧ Frame .badParam 0 [] s t) ∧
    (refBlocksOk a b → refMethodOk s m k → m = 0 →
      ∃ t, exec (.xteaDec a b m k) s = .next t ∧ Frame .none 0 [] s t) ∧
    (refBlocksOk a b → refMethodOk s m k → m ≠ 0 →
      ∃ t, exec (.xteaDec a b m k) s = .next t ∧ Frame .none 0 [.bytes (0x800 + a) b] s t ∧
        ∀ j < b / 8,
          let r := xteaD (refKey s k) (refCycles s m) (s.bufferWord (0x800 + a + 8 * j))
            (s.bufferWord (0x800 + a + 8 * j + 4))
          t.bufferWord (0x800 + a + 8 * j) = r.1 ∧ t.bufferWord (0x800 + a + 8 * j + 4) = r.2)

/-- 44_xtea R297, corner case: XTEA_DEC with the same operands and registers undoes XTEA_ENC on every byte
of both buffers. -/
def Obligations.XteaDecUndoesXteaEnc : Prop :=
  ∀ (s : State) (a b : Nat) (m : BitVec 2) (k : KeySel), refBlocksOk a b → refMethodOk s m k →
    ∃ t u, exec (.xteaEnc a b m k) s = .next t ∧ exec (.xteaDec a b m k) t = .next u ∧ u.err = .none ∧
      ∀ x, u.readByte x = s.readByte x

/-- 44_xtea R298: OPEN_PAYLOAD, every outcome. -/
def Obligations.OpenPayloadTriesTheKeysInOrder : Prop :=
  ∀ (s : State) (a b : Nat) (m : BitVec 2) (k : KeySel), 1 ≤ s.crcOrder.toNat →
    let legal := refBlocksOk a b ∧ s.crcOrder.toNat ≤ 8 ∧ refMethodOk s m k
    let other : KeySel := if k = .current then .old else .current
    let mayFallBack := k = .old ∨ s.oldValid = true
    let opens (key : KeySel) : Prop := refPayloadOk s b (refPlainByte s a m key)
    let opened (key : KeySel) (fallback : Nat) (t : State) : Prop :=
      exec (.openPayload a b m k) s = .next t ∧ Frame .none 0 [.result0, .bytes (0x800 + a) b] s t ∧
        (∀ i < b, t.readByte (0x800 + a + i) = refPlainByte s a m key i) ∧
        t.result0.toNat = 4 * m.toNat + 2 * fallback + (if key = .old then 1 else 0)
    refEncoding 0x12 (.openPayload a b m k) ∧
    (¬ legal → ∃ t, exec (.openPayload a b m k) s = .next t ∧ Frame .badParam 0 [] s t) ∧
    (legal → m = 0 → refPayloadOk s b (fun i => s.readByte (0x800 + a + i)) →
      ∃ t, exec (.openPayload a b m k) s = .next t ∧ Frame .none 0 [.result0] s t ∧ t.result0 = 0) ∧
    (legal → m = 0 → ¬ refPayloadOk s b (fun i => s.readByte (0x800 + a + i)) →
      ∃ t, exec (.openPayload a b m k) s = .next t ∧ Frame .crcFail 0 [] s t) ∧
    (legal → m ≠ 0 → opens k → ∃ t, opened k 0 t) ∧
    (legal → m ≠ 0 → ¬ opens k → mayFallBack → opens other → ∃ t, opened other 1 t) ∧
    (legal → m ≠ 0 → ¬ opens k → ¬ (mayFallBack ∧ opens other) →
      ∃ t, exec (.openPayload a b m k) s = .next t ∧ Frame .crcFail 0 [] s t)

/-- The receive path undoes the send path (44_xtea R296, R298, 42_crc R245): a payload whose CRC byte is
filled and which is enciphered under a usable key is opened with that key, and its bytes come back. -/
def Obligations.OpenPayloadUndoesSeal : Prop :=
  ∀ (s : State) (a b : Nat) (m : BitVec 2) (k : KeySel), refBlocksOk a b → refMethodOk s m k →
    1 ≤ s.crcOrder.toNat → s.crcOrder.toNat ≤ 8 →
    ∃ t u v, exec (.crcFill a b .crcInit) s = .next t ∧ exec (.xteaEnc a b m k) t = .next u ∧
      exec (.openPayload a b m k) u = .next v ∧ t.err = .none ∧ u.err = .none ∧ v.err = .none ∧
      (∀ i < b, v.readByte (0x800 + a + i) = t.readByte (0x800 + a + i)) ∧
      v.result0.toNat = (if m = 0 then 0 else 4 * m.toNat + (if k = .old then 1 else 0))

/-- 44_xtea R299: KEY_ROTATE. -/
def Obligations.KeyRotateReplacesTheLowFragment : Prop :=
  refEncoding 0x14 .keyRotate ∧ ∀ s : State, ∃ t, exec .keyRotate s = .next t ∧ Frame .none 0 [.keys] s t ∧
    (∀ j < 4, refKeyWord t.oldKey j = refKeyWord s.curKey j) ∧
    (∀ j < 3, refKeyWord t.curKey j = refKeyWord s.curKey j) ∧ refKeyWord t.curKey 3 = s.arg0 ∧
    t.oldValid = true

/-- 44_xtea R300: KEY_COMMIT. -/
def Obligations.KeyCommitDisablesTheOldKey : Prop :=
  refEncoding 0x15 .keyCommit ∧ ∀ s : State, ∃ t, exec .keyCommit s = .next t ∧ Frame .none 0 [.keys] s t ∧ t.curKey = s.curKey ∧
    t.oldKey = s.oldKey ∧ t.oldValid = false

/-- 44_xtea R301: in one step the key registers change only by KEY_ROTATE, by a reset, or by a host write
to a key register. -/
def Obligations.KeysChangeOnlyByRotateResetOrHostWrite : Prop :=
  ∀ s t : State, step s = .next t → (t.curKey ≠ s.curKey ∨ t.oldKey ≠ s.oldKey) →
    (∃ w, s.latch = some w ∧ decode w = .ok .keyRotate ∧ t.oldKey = s.curKey) ∨
    (∃ rest, s.inputs = .rst true :: rest ∧ t.curKey = Key.zero ∧ t.oldKey = Key.zero) ∨
    (∃ addr v rest, s.inputs = .write addr v :: rest ∧ 0x040 ≤ refOffset addr ∧ refOffset addr ≤ 0x05C ∧
      s.latch = none)

/-! ### Message IDs -/

/-- 45_msgid R342: MID_NEXT. The premise is the table's canonical form, an invariant (log 16). -/
def Obligations.MidNextTakesTheNextId : Prop :=
  ∀ (s : State) (a : Nat), MidTable.wf s.mid = true →
    refEncoding 0x18 (.midNext a) ∧
    (Config.nDev ≤ a → ∃ t, exec (.midNext a) s = .next t ∧ Frame .badParam 0 [] s t) ∧
    (a < Config.nDev → ∃ t, exec (.midNext a) s = .next t ∧ Frame .none 0 [.result0, .slot a] s t ∧
      t.result0.toNat = (s.midSlot a).txid.toNat ∧
      (t.midSlot a).txid.toNat = ((s.midSlot a).txid.toNat + 1) % 4096 ∧
      (t.midSlot a).last = (s.midSlot a).last ∧ (t.midSlot a).valid = (s.midSlot a).valid ∧
      (t.midSlot a).strict = (s.midSlot a).strict)

/-- 45_msgid R345: N consecutive MID_NEXT commands return consecutive numbers modulo 4096. -/
def Obligations.MidNextIdsAreConsecutive : Prop :=
  ∀ (s : State) (a n : Nat), a < Config.nDev → MidTable.wf s.mid = true →
    ((midNextRun a n s).2).map BitVec.toNat
      = (List.range n).map fun i => ((s.midSlot a).txid.toNat + i) % 4096

/-- 45_msgid R343: MID_VALIDATE, every outcome. -/
def Obligations.MidValidateClassifiesTheId : Prop :=
  ∀ (s : State) (a : Nat), MidTable.wf s.mid = true →
    let i := s.arg0.toNat % 4096
    let d := s.midSlot a
    let accepted (code : Nat) : Prop :=
      ∃ t, exec (.midValidate a) s = .next t ∧ Frame .none 0 [.result0, .slot a] s t ∧ t.result0.toNat = code ∧
        t.midSlot a = { d with last := BitVec.ofNat 12 i, valid := true }
    refEncoding 0x19 (.midValidate a) ∧
    (Config.nDev ≤ a → ∃ t, exec (.midValidate a) s = .next t ∧ Frame .badParam 0 [] s t) ∧
    (a < Config.nDev → d.valid = false → accepted 1) ∧
    (a < Config.nDev → d.valid = true → i = d.last.toNat →
      ∃ t, exec (.midValidate a) s = .next t ∧ Frame .none 0 [.result0] s t ∧ t.result0 = 3) ∧
    (a < Config.nDev → d.valid = true → i = (d.last.toNat + 1) % 4096 → accepted 2) ∧
    (a < Config.nDev → d.valid = true → i ≠ d.last.toNat → i ≠ (d.last.toNat + 1) % 4096 → d.strict = true →
      ∃ t, exec (.midValidate a) s = .next t ∧ Frame .badMsgId 0 [.result0] s t ∧ t.result0 = 4) ∧
    (a < Config.nDev → d.valid = true → i ≠ d.last.toNat → i ≠ (d.last.toNat + 1) % 4096 → d.strict = false →
      accepted 5)

/-- 45_msgid R346: under STRICT, LAST is a DUPLICATE and every ID LAST + k, 2 ≤ k ≤ 4095, is rejected; only
RESULT0, which reports the outcome (R343), changes beside the completion. -/
def Obligations.StrictSlotRejectsReplays : Prop :=
  ∀ (s : State) (a k : Nat), a < Config.nDev → (s.midSlot a).valid = true → (s.midSlot a).strict = true →
    s.arg0.toNat % 4096 = ((s.midSlot a).last.toNat + k) % 4096 →
    (k = 0 → ∃ t, exec (.midValidate a) s = .next t ∧ Frame .none 0 [.result0] s t ∧ t.result0 = 3) ∧
    (2 ≤ k → k ≤ 4095 →
      ∃ t, exec (.midValidate a) s = .next t ∧ Frame .badMsgId 0 [.result0] s t ∧ t.result0 = 4)

/-! ### ACK/NACK frames -/

/-- 46_acknack R370: ACK_PARSE, its checks in order and the fields it latches. -/
def Obligations.AckParseChecksThenLatchesTheFrame : Prop :=
  ∀ (s : State) (a b : Nat) (k : FrameKind), 1 ≤ s.crcOrder.toNat →
    let raw (i : Nat) : Nat := (s.readByte (0x800 + a + i)).toNat
    let hdr := 3 + refNack k
    let inRange := a + b ≤ 256 ∧ hdr ≤ b ∧ s.crcOrder.toNat ≤ 8
    let crcOk := raw 0 = refCrcOfBytes s s.crcInit (0x800 + a + 1) (b - 1)
    let h := raw 2 % 16
    let handleOk := h < 12 ∧ hdr + refHandleSize h ≤ b
    let id := 16 * raw 1 + raw 2 / 16
    let r := if k = .nack then raw 3 else 0
    refEncoding 0x20 (.ackParse a b k) ∧
    (¬ inRange → ∃ t, exec (.ackParse a b k) s = .next t ∧ Frame .badParam 0 [] s t) ∧
    (inRange → ¬ crcOk → ∃ t, exec (.ackParse a b k) s = .next t ∧ Frame .crcFail 0 [] s t) ∧
    (inRange → crcOk → ¬ handleOk → ∃ t, exec (.ackParse a b k) s = .next t ∧ Frame .badParam 0 [] s t) ∧
    (inRange → crcOk → handleOk →
      ∃ t, exec (.ackParse a b k) s = .next t ∧ Frame .none 0 [.parse, .result0, .result1] s t ∧
        refRead t 0x068 = 1 + 2 * refNack k + 4 * (if 128 ≤ r then 1 else 0) + 2 ^ 4 * id + 2 ^ 16 * h
          + 2 ^ 24 * r ∧
        t.parse.value = (if refHandleSize h = 4 then s.bufferWord (0x800 + a + hdr) else 0) ∧
        t.result0.toNat = refRead t 0x068 ∧ t.result1.toNat = a + hdr)

/-- 46_acknack R372: NACK_FATAL, as arithmetic on the reason. -/
def Obligations.NackFatalClassifiesTheReason : Prop :=
  ∀ s : State,
    let r := s.arg0.toNat % 256
    refEncoding 0x21 (.nackFatal) ∧
    ∃ t, exec .nackFatal s = .next t ∧ Frame .none 0 [.result0, .result1] s t ∧ t.result1 = 0 ∧
      t.result0.toNat = (if 0x80 ≤ r then 1 else 0)
        + 2 * (if (0x40 ≤ r ∧ r ≤ 0x7F) ∨ 0xC0 ≤ r then 1 else 0) + 4 * (if r = 0 then 1 else 0)

/-! ### The arbiter -/

/-- 46_acknack R375: ARB_START, its errors in order and the channel it starts. -/
def Obligations.ArbStartStartsTheChannel : Prop :=
  ∀ (s : State) (n : Chan),
    let c := s.chan n
    let ty := s.arg0.toNat / 4096 % 4
    let typeOk := (n = .c0 ∧ ty = 0) ∨ (n = .c1 ∧ (ty = 1 ∨ ty = 2))
    refEncoding 0x24 (.arbStart n) ∧
    (refInProgress c → ∃ t, exec (.arbStart n) s = .next t ∧ Frame .alreadyInProgress 0 [] s t) ∧
    (¬ refInProgress c → ¬ typeOk ∨ c.toBase = 0 →
      ∃ t, exec (.arbStart n) s = .next t ∧ Frame .badParam 0 [] s t) ∧
    (¬ refInProgress c → typeOk → c.toBase ≠ 0 →
      ∃ t, exec (.arbStart n) s = .next t ∧ Frame .none 0 [.chan n] s t ∧
        (t.chan n).toBase = c.toBase ∧ (t.chan n).toStep = c.toStep ∧
        (t.chan n).expId.toNat = s.arg0.toNat % 4096 ∧ (t.chan n).txType.code.toNat = ty ∧
        (t.chan n).attempt = 1 ∧ (t.chan n).result = .none ∧ (t.chan n).cause = .none ∧
        (t.chan n).handle = 0 ∧ (t.chan n).reason = 0 ∧ (t.chan n).remain.toNat = c.toBase.toNat ∧
        (t.chan n).state = .wait)

/-- 46_acknack R376, R380: ARB_RESEND. The premise holds of every reachable channel (`Channel.Legal`). That
R376's formula also holds when it gives a timeout of 0 is the model's reading (log 12). -/
def Obligations.ArbResendStartsTheNextAttempt : Prop :=
  ∀ (s : State) (n : Chan), (s.chan n).attempt.toNat ≤ 8 →
    let c := s.chan n
    refEncoding 0x25 (.arbResend n) ∧
    (c.state ≠ .retryDue → ∃ t, exec (.arbResend n) s = .next t ∧ Frame .wrongState 0 [] s t) ∧
    (c.state = .retryDue →
      ∃ t, exec (.arbResend n) s = .next t ∧ Frame .none 0 [.chan n] s t ∧
        t.chan n = { c with
          attempt := BitVec.ofNat 4 (c.attempt.toNat + 1)
          remain := BitVec.ofNat 32 (c.toBase.toNat + c.attempt.toNat * c.toStep.toNat)
          state := .wait })

/-- 46_acknack R377: ARB_RESPOND, its errors in order and every transition. That the sum of SLOW_DOWN_TIME is
exact before it saturates is the model's reading (log 13). -/
def Obligations.ArbRespondAppliesTheParsedFrame : Prop :=
  ∀ (s : State) (n : Chan),
    let c := s.chan n
    let p := s.parse
    let ready := refInProgress c ∧ p.valid = true
    let base := c.toBase.toNat
    let v := p.value.toNat
    let newBase :=
      if p.handle = 9 then min 0xFFFF (base + v) else if p.handle = 10 then max 1 (base - v) else base
    let c' : Channel := { c with handle := p.handle, reason := p.reason, toBase := BitVec.ofNat 16 newBase }
    let answers (events : BitVec 5) (d : Channel) : Prop :=
      ∃ t, exec (.arbRespond n) s = .next t ∧ Frame .none events [.parse, .chan n] s t ∧
        t.parse = { p with valid := false } ∧ t.chan n = d
    let fatal := 128 ≤ p.reason.toNat
    let pauses := p.handle = 11 ∧ p.value ≠ 0
    refEncoding 0x26 (.arbRespond n) ∧
    (¬ ready → ∃ t, exec (.arbRespond n) s = .next t ∧ Frame .wrongState 0 [] s t) ∧
    (ready → p.msgId ≠ c.expId → ∃ t, exec (.arbRespond n) s = .next t ∧ Frame .badMsgId 0 [] s t) ∧
    (ready → p.msgId = c.expId → p.isNack = false →
      answers (refEvent n) { c' with state := .doneOk, result := .success, cause := .ack, remain := 0 }) ∧
    (ready → p.msgId = c.expId → p.isNack = true → fatal →
      answers (refEvent n)
        { c' with state := .doneFail, result := c.txType.failResult, cause := .nackFatal, remain := 0 }) ∧
    (ready → p.msgId = c.expId → p.isNack = true → ¬ fatal → c.attempt.toNat < 8 → pauses →
      answers 0 { c' with state := .pause, remain := p.value }) ∧
    (ready → p.msgId = c.expId → p.isNack = true → ¬ fatal → c.attempt.toNat < 8 → ¬ pauses →
      answers (refEvent n) { c' with state := .retryDue, remain := 0 }) ∧
    (ready → p.msgId = c.expId → p.isNack = true → ¬ fatal → 8 ≤ c.attempt.toNat →
      answers (refEvent n)
        { c' with state := .doneFail, result := c.txType.failResult, cause := .nackExhausted, remain := 0 })

/-- 46_acknack R378: ARB_ABORT. -/
def Obligations.ArbAbortEndsTheTransaction : Prop :=
  ∀ (s : State) (n : Chan),
    let c := s.chan n
    refEncoding 0x27 (.arbAbort n) ∧
    (¬ refInProgress c → ∃ t, exec (.arbAbort n) s = .next t ∧ Frame .wrongState 0 [] s t) ∧
    (refInProgress c → ∃ t, exec (.arbAbort n) s = .next t ∧ Frame .none (refEvent n) [.chan n] s t ∧
      t.chan n = { c with state := .doneFail, cause := .aborted, remain := 0,
                          result := match c.txType with
                            | .single => .singleFail
                            | .block => .blockFail
                            | .stream => .streamFail })

/-- 46_acknack R382: one TICK event, on each channel and on everything else. That a running timer at 0 wraps
is the model's reading (log 12). -/
def Obligations.TickAdvancesTheTimers : Prop :=
  ∀ (s : State) (rest : List Input), s.inputs = .tick :: rest → s.rst = false →
    let runs (n : Chan) : Prop := (s.chan n).state = .wait ∨ (s.chan n).state = .pause
    let expires (n : Chan) : Prop := runs n ∧ (s.chan n).remain = 1
    ∃ t, step s = .next t ∧
      t = { s with inputs := rest, ch0 := t.ch0, ch1 := t.ch1, intStatus := t.intStatus } ∧
      (∀ b < 5, t.intStatus.getLsbD b = true ↔
        s.intStatus.getLsbD b = true ∨ (b = 3 ∧ expires .c0) ∨ (b = 4 ∧ expires .c1)) ∧
      ∀ n,
        let c := s.chan n
        (¬ runs n → t.chan n = c) ∧
        (runs n → c.remain ≠ 1 → t.chan n = { c with remain := c.remain - 1 }) ∧
        (expires n → (c.state = .pause ∨ c.attempt.toNat < 8) →
          t.chan n = { c with remain := 0, state := .retryDue }) ∧
        (expires n → c.state = .wait → 8 ≤ c.attempt.toNat →
          t.chan n = { c with
            remain := 0, state := .doneFail, result := c.txType.failResult, cause := .timeOut })

/-- 46_acknack R374, R381: in one step other than a reset, a channel keeps its state or makes a listed
transition; and entering RETRY_DUE, DONE_OK or DONE_FAIL sets the channel's INT_STATUS bit. -/
def Obligations.ChannelsMakeOnlyListedTransitions : Prop :=
  ∀ s t : State, step s = .next t → s.inputs.head? ≠ some (.rst true) → ∀ n,
    let c := s.chan n
    let c' := t.chan n
    c'.state = c.state ∨
      (refTransition c c' ∧
        (c'.state = .retryDue ∨ c'.state = .doneOk ∨ c'.state = .doneFail →
          t.intStatus &&& refEvent n = refEvent n))

/-- 46_acknack R384, scenario B on channel 0: after ARB_START each attempt k + 1 of the eight waits exactly
TO_BASE + k * TO_STEP ticks, every timeout but the last leaves RETRY_DUE, and the last one ends in DONE_FAIL
with SINGLE_FAIL and TIME_OUT. -/
def Obligations.EightTimeoutsFailTheTransaction : Prop :=
  ∀ (s : State), ¬ refInProgress s.ch0 → s.ch0.toBase ≠ 0 → s.arg0.toNat / 4096 % 4 = 0 →
    ∃ t, exec (.arbStart .c0) s = .next t ∧
      (∀ k < 8,
        ((resendRun .c0 k t).ch0).state = .wait ∧ ((resendRun .c0 k t).ch0).attempt.toNat = k + 1 ∧
        ((resendRun .c0 k t).ch0).remain.toNat = s.ch0.toBase.toNat + k * s.ch0.toStep.toNat ∧
        ∀ j < ((resendRun .c0 k t).ch0).remain.toNat,
          ((State.tick^[j] (resendRun .c0 k t)).ch0).state = .wait) ∧
      (∀ k < 7, ((waitOut .c0 (resendRun .c0 k t)).ch0).state = .retryDue) ∧
      ((waitOut .c0 (resendRun .c0 7 t)).ch0).state = .doneFail ∧
      ((waitOut .c0 (resendRun .c0 7 t)).ch0).result = .singleFail ∧
      ((waitOut .c0 (resendRun .c0 7 t)).ch0).cause = .timeOut

/-- 46_acknack R383, scenario A: a transaction in WAIT on channel 0 that is answered by an ACK frame with the
expected ID and handle NONE ends in DONE_OK with SUCCESS. -/
def Obligations.MatchingAckEndsTheTransactionWell : Prop :=
  ∀ (s : State) (a b : Nat), s.ch0.state = .wait → 1 ≤ s.crcOrder.toNat → s.crcOrder.toNat ≤ 8 →
    3 ≤ b → a + b ≤ 256 →
    (s.readByte (0x800 + a)).toNat = refCrcOfBytes s s.crcInit (0x800 + a + 1) (b - 1) →
    16 * (s.readByte (0x800 + a + 1)).toNat + (s.readByte (0x800 + a + 2)).toNat / 16 = s.ch0.expId.toNat →
    (s.readByte (0x800 + a + 2)).toNat % 16 = 0 →
    ∃ t u, exec (.ackParse a b .ack) s = .next t ∧ exec (.arbRespond .c0) t = .next u ∧ u.err = .none ∧
      u.ch0.state = .doneOk ∧ u.ch0.result = .success ∧ u.ch0.cause = .ack ∧ u.ch0.remain = 0 ∧
      u.ch1 = s.ch1 ∧ u.intStatus.getLsbD 3 = true

/-! ### Host accesses -/

/-- 10_state R33 to R58, 20_memory R100, R104, R105: what a host read returns while not BUSY, and 20_memory
R107: it changes nothing in the block. -/
def Obligations.ReadsFollowTheRegisterMap : Prop :=
  ∀ (s : State) (addr : BusAddr) (rest : List Input),
    s.inputs = .read addr :: rest → s.rst = false → s.latch = none →
    ∃ t, step s = .next t ∧ t = { s with inputs := rest, busRdata := t.busRdata } ∧
      t.busRdata.toNat = refRead s (refOffset addr)

/-- 70_reset_and_hazards R491, 20_memory R105, 10_state R37: while BUSY a read of what a command may write is
a free value, the next of the model's draws (log 2), and every other read is true: CMD and the reserved offsets
read 0 then too (log 3). -/
def Obligations.ReadsWhileBusyAreTrueOrFree : Prop :=
  ∀ (s : State) (addr : BusAddr) (rest : List Input),
    s.inputs = .read addr :: rest → s.rst = false → s.latch ≠ none →
    (¬ refCommandWritten (refOffset addr) →
      ∃ t, step s = .next t ∧ t = { s with inputs := rest, busRdata := t.busRdata } ∧
        t.busRdata.toNat = refRead s (refOffset addr)) ∧
    (refCommandWritten (refOffset addr) →
      step s = .next { s with inputs := rest, busRdata := Config.freeRead s.draws, draws := s.draws + 1 })

/-- 10_state R35 to R58, R64: a host write to an RW register or buffer word while not BUSY stores its
writable bits (CRC_ORDER keeps its value on an illegal one, R45), and no other register or word changes. -/
def Obligations.WritesStoreTheWritableBits : Prop :=
  ∀ (s : State) (addr : BusAddr) (v : Word) (rest : List Input),
    s.inputs = .write addr v :: rest → s.rst = false → s.latch = none → MidTable.wf s.mid = true →
    let off := refOffset addr
    refWritable off ≠ 0 →
    ∃ t, step s = .next t ∧ t.inputs = rest ∧ t.latch = none ∧
      (off ≠ 0x038 → refRead t off = v.toNat &&& refWritable off) ∧
      (off = 0x038 → refRead t off =
        if 1 ≤ v.toNat % 32 ∧ v.toNat % 32 ≤ 16 then v.toNat % 32 else refRead s off) ∧
      (∀ off', off' % 4 = 0 → off' ≠ off → refRead t off' = refRead s off')

/-- 70_reset_and_hazards R490: while BUSY a write to an RW register other than INT_ENABLE, to a buffer word or
to CMD only sets WERR, and a write to a read-only register or a reserved offset has no effect at any time.
That a write of an illegal value to CRC_ORDER while BUSY sets WERR too is the model's reading (log 20).
Writes to INT_STATUS and INT_ENABLE act at all times: `InterruptRegistersAlwaysTakeWrites`. -/
def Obligations.IgnoredWritesWhileBusyOnlySetWerr : Prop :=
  ∀ (s : State) (addr : BusAddr) (v : Word) (rest : List Input),
    s.inputs = .write addr v :: rest → s.rst = false →
    let off := refOffset addr
    (s.latch ≠ none → refWritable off ≠ 0 ∨ off = 0x00C →
      step s = .next { s with inputs := rest, intStatus := s.intStatus ||| 0b00100 }) ∧
    (refWritable off = 0 → off ≠ 0x00C → off ≠ 0x020 → off ≠ 0x024 →
      step s = .next { s with inputs := rest })

/-- 10_state R40, R41: writes to INT_STATUS clear the bits that are 1 and writes to INT_ENABLE set the mask,
BUSY or not. -/
def Obligations.InterruptRegistersAlwaysTakeWrites : Prop :=
  ∀ (s : State) (addr : BusAddr) (v : Word) (rest : List Input),
    s.inputs = .write addr v :: rest → s.rst = false →
    (refOffset addr = 0x020 → ∃ t, step s = .next t ∧
      t = { s with inputs := rest, intStatus := t.intStatus } ∧
      ∀ b < 5, t.intStatus.getLsbD b = (s.intStatus.getLsbD b && !v.getLsbD b)) ∧
    (refOffset addr = 0x024 → ∃ t, step s = .next t ∧
      t = { s with inputs := rest, intEnable := t.intEnable } ∧
      ∀ b < 5, t.intEnable.getLsbD b = v.getLsbD b)

/-- 10_state R42: `irq` is 1 exactly when an enabled bit is pending. -/
def Obligations.IrqIsTheEnabledPendingBits : Prop :=
  ∀ s : State, s.irq = true ↔ ∃ b < 5, s.intStatus.getLsbD b = true ∧ s.intEnable.getLsbD b = true

/-- 10_state R59: while a command is accepted and not yet completed, no step of the host or of the tick
source changes what the command will read, but for the channels, which a TICK changes. -/
def Obligations.OperandsStayFixedWhileBusy : Prop :=
  ∀ (s t : State) (i : Input) (rest : List Input), step s = .next t → s.latch ≠ none → s.rst = false →
    s.inputs = i :: rest → i ≠ .engine → i ≠ .rst true →
    t.latch = s.latch ∧ t.allowNoenc = s.allowNoenc ∧ t.arg0 = s.arg0 ∧ t.crcPoly = s.crcPoly ∧
    t.crcInit = s.crcInit ∧ t.crcOrder = s.crcOrder ∧ t.cpr = s.cpr ∧ t.curKey = s.curKey ∧
    t.oldKey = s.oldKey ∧ t.oldValid = s.oldValid ∧ t.parse = s.parse ∧ t.mid = s.mid ∧ t.mem = s.mem ∧
    t.resets = s.resets ∧ t.result0 = s.result0 ∧ t.result1 = s.result1 ∧ t.err = s.err ∧
    t.lastOp = s.lastOp ∧ (i ≠ .tick → t.ch0 = s.ch0 ∧ t.ch1 = s.ch1)

/-! ### Reset -/

/-- 10_state R63: the values after reset, read through the register map. -/
def Obligations.ResetStateHasTheListedValues : Prop :=
  (∀ off, off % 4 = 0 → refNotBuffer off → refRead State.reset off = refResetValue off) ∧
  State.reset.latch = none ∧ State.reset.irq = false

/-- 70_reset_and_hazards R480: a reset brings every register to its reset value and drops the command, from
any state; and while `rst` is 1, host writes, TICK events and the engine do nothing and a read is a free
value. The level `rst` and the numbering of the free values are the model's own form (logs 1, 2 and 10). -/
def Obligations.ResetRestoresTheResetValues : Prop :=
  (∀ (s : State) (rest : List Input), s.inputs = .rst true :: rest →
    ∃ t, step s = .next t ∧ t.rst = true ∧ t.latch = none ∧ t.inputs = rest ∧
      (∀ off, off % 4 = 0 → refNotBuffer off → refRead t off = refResetValue off) ∧
      ∀ x, t.readByte x = Config.bufferAtReset (s.resets + 1) x) ∧
  (∀ (s : State) (i : Input) (rest : List Input), s.rst = true → s.inputs = i :: rest →
    (i = .tick ∨ i = .engine ∨ (∃ addr v, i = .write addr v) → step s = .next { s with inputs := rest }) ∧
    (∀ addr, i = .read addr →
      step s = .next
        { s with inputs := rest, busRdata := Config.freeRead s.draws, draws := s.draws + 1 })) ∧
  (∀ (s : State) (rest : List Input), s.inputs = .rst false :: rest →
    step s = .next { s with inputs := rest, rst := false })

/-! ### Invariants -/

/-- The invariant holds after reset. -/
def Obligations.ResetStateSatisfiesTheInvariant : Prop := State.Inv State.reset

/-- Every step keeps the invariant: the tables stay in canonical form, CRC_ORDER stays legal, the channels and
the parse latch stay legal, and ERR and LASTOP follow the accepted command. -/
def Obligations.EveryStepKeepsTheInvariant : Prop :=
  ∀ s t : State, State.Inv s → step s = .next t → State.Inv t

/-- 46_acknack R374, "In WAIT and PAUSE, REMAIN >= 1": kept by every step, as long as the host never writes
TO_BASE = 0 in ARBn_CFG (log 12 says what happens otherwise). -/
def Obligations.RunningTimersAreNotZero : Prop :=
  ∀ s t : State, State.Inv s → step s = .next t →
    (∀ addr v rest, s.inputs = .write addr v :: rest → refOffset addr = 0x080 ∨ refOffset addr = 0x090 →
      v.toNat % 65536 ≠ 0) →
    let ok (u : State) : Prop := ∀ n, refInProgress (u.chan n) →
      (u.chan n).toBase ≠ 0 ∧
      ((u.chan n).state = .wait ∨ (u.chan n).state = .pause → (u.chan n).remain ≠ 0)
    ok s → ok t
end

