-- ==== Sys2Proof/Laws/State.lean ====
section
/-! SUPPORT. One lemma per field per update of State, so that no later proof unfolds a record update; and
what the accessors read after each update. -/

namespace Sys2Proof.Machine


/-! ### setResult0 -/

@[simp] theorem State.setResult0_allowNoenc (s : State) (v : Word) : (s.setResult0 v).allowNoenc = s.allowNoenc := rfl
@[simp] theorem State.setResult0_latch (s : State) (v : Word) : (s.setResult0 v).latch = s.latch := rfl
@[simp] theorem State.setResult0_err (s : State) (v : Word) : (s.setResult0 v).err = s.err := rfl
@[simp] theorem State.setResult0_lastOp (s : State) (v : Word) : (s.setResult0 v).lastOp = s.lastOp := rfl
@[simp] theorem State.setResult0_arg0 (s : State) (v : Word) : (s.setResult0 v).arg0 = s.arg0 := rfl
@[simp] theorem State.setResult0_result0 (s : State) (v : Word) : (s.setResult0 v).result0 = v := rfl
@[simp] theorem State.setResult0_result1 (s : State) (v : Word) : (s.setResult0 v).result1 = s.result1 := rfl
@[simp] theorem State.setResult0_intStatus (s : State) (v : Word) : (s.setResult0 v).intStatus = s.intStatus := rfl
@[simp] theorem State.setResult0_intEnable (s : State) (v : Word) : (s.setResult0 v).intEnable = s.intEnable := rfl
@[simp] theorem State.setResult0_crcPoly (s : State) (v : Word) : (s.setResult0 v).crcPoly = s.crcPoly := rfl
@[simp] theorem State.setResult0_crcInit (s : State) (v : Word) : (s.setResult0 v).crcInit = s.crcInit := rfl
@[simp] theorem State.setResult0_crcOrder (s : State) (v : Word) : (s.setResult0 v).crcOrder = s.crcOrder := rfl
@[simp] theorem State.setResult0_cpr (s : State) (v : Word) : (s.setResult0 v).cpr = s.cpr := rfl
@[simp] theorem State.setResult0_curKey (s : State) (v : Word) : (s.setResult0 v).curKey = s.curKey := rfl
@[simp] theorem State.setResult0_oldKey (s : State) (v : Word) : (s.setResult0 v).oldKey = s.oldKey := rfl
@[simp] theorem State.setResult0_oldValid (s : State) (v : Word) : (s.setResult0 v).oldValid = s.oldValid := rfl
@[simp] theorem State.setResult0_parse (s : State) (v : Word) : (s.setResult0 v).parse = s.parse := rfl
@[simp] theorem State.setResult0_ch0 (s : State) (v : Word) : (s.setResult0 v).ch0 = s.ch0 := rfl
@[simp] theorem State.setResult0_ch1 (s : State) (v : Word) : (s.setResult0 v).ch1 = s.ch1 := rfl
@[simp] theorem State.setResult0_mid (s : State) (v : Word) : (s.setResult0 v).mid = s.mid := rfl
@[simp] theorem State.setResult0_mem (s : State) (v : Word) : (s.setResult0 v).mem = s.mem := rfl
@[simp] theorem State.setResult0_rst (s : State) (v : Word) : (s.setResult0 v).rst = s.rst := rfl
@[simp] theorem State.setResult0_busRdata (s : State) (v : Word) : (s.setResult0 v).busRdata = s.busRdata := rfl
@[simp] theorem State.setResult0_inputs (s : State) (v : Word) : (s.setResult0 v).inputs = s.inputs := rfl
@[simp] theorem State.setResult0_draws (s : State) (v : Word) : (s.setResult0 v).draws = s.draws := rfl
@[simp] theorem State.setResult0_resets (s : State) (v : Word) : (s.setResult0 v).resets = s.resets := rfl
@[simp] theorem State.setResult0_readByte (s : State) (v : Word) (x : Nat) : (s.setResult0 v).readByte x = s.readByte x := rfl
@[simp] theorem State.setResult0_midSlot (s : State) (v : Word) (j : Nat) : (s.setResult0 v).midSlot j = s.midSlot j := rfl
@[simp] theorem State.setResult0_chan (s : State) (v : Word) (c : Chan) : (s.setResult0 v).chan c = s.chan c := by cases c <;> rfl

/-! ### setResult1 -/

@[simp] theorem State.setResult1_allowNoenc (s : State) (v : Word) : (s.setResult1 v).allowNoenc = s.allowNoenc := rfl
@[simp] theorem State.setResult1_latch (s : State) (v : Word) : (s.setResult1 v).latch = s.latch := rfl
@[simp] theorem State.setResult1_err (s : State) (v : Word) : (s.setResult1 v).err = s.err := rfl
@[simp] theorem State.setResult1_lastOp (s : State) (v : Word) : (s.setResult1 v).lastOp = s.lastOp := rfl
@[simp] theorem State.setResult1_arg0 (s : State) (v : Word) : (s.setResult1 v).arg0 = s.arg0 := rfl
@[simp] theorem State.setResult1_result0 (s : State) (v : Word) : (s.setResult1 v).result0 = s.result0 := rfl
@[simp] theorem State.setResult1_result1 (s : State) (v : Word) : (s.setResult1 v).result1 = v := rfl
@[simp] theorem State.setResult1_intStatus (s : State) (v : Word) : (s.setResult1 v).intStatus = s.intStatus := rfl
@[simp] theorem State.setResult1_intEnable (s : State) (v : Word) : (s.setResult1 v).intEnable = s.intEnable := rfl
@[simp] theorem State.setResult1_crcPoly (s : State) (v : Word) : (s.setResult1 v).crcPoly = s.crcPoly := rfl
@[simp] theorem State.setResult1_crcInit (s : State) (v : Word) : (s.setResult1 v).crcInit = s.crcInit := rfl
@[simp] theorem State.setResult1_crcOrder (s : State) (v : Word) : (s.setResult1 v).crcOrder = s.crcOrder := rfl
@[simp] theorem State.setResult1_cpr (s : State) (v : Word) : (s.setResult1 v).cpr = s.cpr := rfl
@[simp] theorem State.setResult1_curKey (s : State) (v : Word) : (s.setResult1 v).curKey = s.curKey := rfl
@[simp] theorem State.setResult1_oldKey (s : State) (v : Word) : (s.setResult1 v).oldKey = s.oldKey := rfl
@[simp] theorem State.setResult1_oldValid (s : State) (v : Word) : (s.setResult1 v).oldValid = s.oldValid := rfl
@[simp] theorem State.setResult1_parse (s : State) (v : Word) : (s.setResult1 v).parse = s.parse := rfl
@[simp] theorem State.setResult1_ch0 (s : State) (v : Word) : (s.setResult1 v).ch0 = s.ch0 := rfl
@[simp] theorem State.setResult1_ch1 (s : State) (v : Word) : (s.setResult1 v).ch1 = s.ch1 := rfl
@[simp] theorem State.setResult1_mid (s : State) (v : Word) : (s.setResult1 v).mid = s.mid := rfl
@[simp] theorem State.setResult1_mem (s : State) (v : Word) : (s.setResult1 v).mem = s.mem := rfl
@[simp] theorem State.setResult1_rst (s : State) (v : Word) : (s.setResult1 v).rst = s.rst := rfl
@[simp] theorem State.setResult1_busRdata (s : State) (v : Word) : (s.setResult1 v).busRdata = s.busRdata := rfl
@[simp] theorem State.setResult1_inputs (s : State) (v : Word) : (s.setResult1 v).inputs = s.inputs := rfl
@[simp] theorem State.setResult1_draws (s : State) (v : Word) : (s.setResult1 v).draws = s.draws := rfl
@[simp] theorem State.setResult1_resets (s : State) (v : Word) : (s.setResult1 v).resets = s.resets := rfl
@[simp] theorem State.setResult1_readByte (s : State) (v : Word) (x : Nat) : (s.setResult1 v).readByte x = s.readByte x := rfl
@[simp] theorem State.setResult1_midSlot (s : State) (v : Word) (j : Nat) : (s.setResult1 v).midSlot j = s.midSlot j := rfl
@[simp] theorem State.setResult1_chan (s : State) (v : Word) (c : Chan) : (s.setResult1 v).chan c = s.chan c := by cases c <;> rfl

/-! ### writeBytes -/

@[simp] theorem State.writeBytes_allowNoenc (s : State) (a : Nat) (vs : List Byte) : (s.writeBytes a vs).allowNoenc = s.allowNoenc := rfl
@[simp] theorem State.writeBytes_latch (s : State) (a : Nat) (vs : List Byte) : (s.writeBytes a vs).latch = s.latch := rfl
@[simp] theorem State.writeBytes_err (s : State) (a : Nat) (vs : List Byte) : (s.writeBytes a vs).err = s.err := rfl
@[simp] theorem State.writeBytes_lastOp (s : State) (a : Nat) (vs : List Byte) : (s.writeBytes a vs).lastOp = s.lastOp := rfl
@[simp] theorem State.writeBytes_arg0 (s : State) (a : Nat) (vs : List Byte) : (s.writeBytes a vs).arg0 = s.arg0 := rfl
@[simp] theorem State.writeBytes_result0 (s : State) (a : Nat) (vs : List Byte) : (s.writeBytes a vs).result0 = s.result0 := rfl
@[simp] theorem State.writeBytes_result1 (s : State) (a : Nat) (vs : List Byte) : (s.writeBytes a vs).result1 = s.result1 := rfl
@[simp] theorem State.writeBytes_intStatus (s : State) (a : Nat) (vs : List Byte) : (s.writeBytes a vs).intStatus = s.intStatus := rfl
@[simp] theorem State.writeBytes_intEnable (s : State) (a : Nat) (vs : List Byte) : (s.writeBytes a vs).intEnable = s.intEnable := rfl
@[simp] theorem State.writeBytes_crcPoly (s : State) (a : Nat) (vs : List Byte) : (s.writeBytes a vs).crcPoly = s.crcPoly := rfl
@[simp] theorem State.writeBytes_crcInit (s : State) (a : Nat) (vs : List Byte) : (s.writeBytes a vs).crcInit = s.crcInit := rfl
@[simp] theorem State.writeBytes_crcOrder (s : State) (a : Nat) (vs : List Byte) : (s.writeBytes a vs).crcOrder = s.crcOrder := rfl
@[simp] theorem State.writeBytes_cpr (s : State) (a : Nat) (vs : List Byte) : (s.writeBytes a vs).cpr = s.cpr := rfl
@[simp] theorem State.writeBytes_curKey (s : State) (a : Nat) (vs : List Byte) : (s.writeBytes a vs).curKey = s.curKey := rfl
@[simp] theorem State.writeBytes_oldKey (s : State) (a : Nat) (vs : List Byte) : (s.writeBytes a vs).oldKey = s.oldKey := rfl
@[simp] theorem State.writeBytes_oldValid (s : State) (a : Nat) (vs : List Byte) : (s.writeBytes a vs).oldValid = s.oldValid := rfl
@[simp] theorem State.writeBytes_parse (s : State) (a : Nat) (vs : List Byte) : (s.writeBytes a vs).parse = s.parse := rfl
@[simp] theorem State.writeBytes_ch0 (s : State) (a : Nat) (vs : List Byte) : (s.writeBytes a vs).ch0 = s.ch0 := rfl
@[simp] theorem State.writeBytes_ch1 (s : State) (a : Nat) (vs : List Byte) : (s.writeBytes a vs).ch1 = s.ch1 := rfl
@[simp] theorem State.writeBytes_mid (s : State) (a : Nat) (vs : List Byte) : (s.writeBytes a vs).mid = s.mid := rfl
@[simp] theorem State.writeBytes_mem (s : State) (a : Nat) (vs : List Byte) : (s.writeBytes a vs).mem = Memory.writeBytes s.mem a vs := rfl
@[simp] theorem State.writeBytes_rst (s : State) (a : Nat) (vs : List Byte) : (s.writeBytes a vs).rst = s.rst := rfl
@[simp] theorem State.writeBytes_busRdata (s : State) (a : Nat) (vs : List Byte) : (s.writeBytes a vs).busRdata = s.busRdata := rfl
@[simp] theorem State.writeBytes_inputs (s : State) (a : Nat) (vs : List Byte) : (s.writeBytes a vs).inputs = s.inputs := rfl
@[simp] theorem State.writeBytes_draws (s : State) (a : Nat) (vs : List Byte) : (s.writeBytes a vs).draws = s.draws := rfl
@[simp] theorem State.writeBytes_resets (s : State) (a : Nat) (vs : List Byte) : (s.writeBytes a vs).resets = s.resets := rfl
@[simp] theorem State.writeBytes_midSlot (s : State) (a : Nat) (vs : List Byte) (j : Nat) : (s.writeBytes a vs).midSlot j = s.midSlot j := rfl
@[simp] theorem State.writeBytes_chan (s : State) (a : Nat) (vs : List Byte) (c : Chan) : (s.writeBytes a vs).chan c = s.chan c := by cases c <;> rfl

/-! ### setMid -/

@[simp] theorem State.setMid_allowNoenc (s : State) (k : Nat) (d : MidSlot) : (s.setMid k d).allowNoenc = s.allowNoenc := rfl
@[simp] theorem State.setMid_latch (s : State) (k : Nat) (d : MidSlot) : (s.setMid k d).latch = s.latch := rfl
@[simp] theorem State.setMid_err (s : State) (k : Nat) (d : MidSlot) : (s.setMid k d).err = s.err := rfl
@[simp] theorem State.setMid_lastOp (s : State) (k : Nat) (d : MidSlot) : (s.setMid k d).lastOp = s.lastOp := rfl
@[simp] theorem State.setMid_arg0 (s : State) (k : Nat) (d : MidSlot) : (s.setMid k d).arg0 = s.arg0 := rfl
@[simp] theorem State.setMid_result0 (s : State) (k : Nat) (d : MidSlot) : (s.setMid k d).result0 = s.result0 := rfl
@[simp] theorem State.setMid_result1 (s : State) (k : Nat) (d : MidSlot) : (s.setMid k d).result1 = s.result1 := rfl
@[simp] theorem State.setMid_intStatus (s : State) (k : Nat) (d : MidSlot) : (s.setMid k d).intStatus = s.intStatus := rfl
@[simp] theorem State.setMid_intEnable (s : State) (k : Nat) (d : MidSlot) : (s.setMid k d).intEnable = s.intEnable := rfl
@[simp] theorem State.setMid_crcPoly (s : State) (k : Nat) (d : MidSlot) : (s.setMid k d).crcPoly = s.crcPoly := rfl
@[simp] theorem State.setMid_crcInit (s : State) (k : Nat) (d : MidSlot) : (s.setMid k d).crcInit = s.crcInit := rfl
@[simp] theorem State.setMid_crcOrder (s : State) (k : Nat) (d : MidSlot) : (s.setMid k d).crcOrder = s.crcOrder := rfl
@[simp] theorem State.setMid_cpr (s : State) (k : Nat) (d : MidSlot) : (s.setMid k d).cpr = s.cpr := rfl
@[simp] theorem State.setMid_curKey (s : State) (k : Nat) (d : MidSlot) : (s.setMid k d).curKey = s.curKey := rfl
@[simp] theorem State.setMid_oldKey (s : State) (k : Nat) (d : MidSlot) : (s.setMid k d).oldKey = s.oldKey := rfl
@[simp] theorem State.setMid_oldValid (s : State) (k : Nat) (d : MidSlot) : (s.setMid k d).oldValid = s.oldValid := rfl
@[simp] theorem State.setMid_parse (s : State) (k : Nat) (d : MidSlot) : (s.setMid k d).parse = s.parse := rfl
@[simp] theorem State.setMid_ch0 (s : State) (k : Nat) (d : MidSlot) : (s.setMid k d).ch0 = s.ch0 := rfl
@[simp] theorem State.setMid_ch1 (s : State) (k : Nat) (d : MidSlot) : (s.setMid k d).ch1 = s.ch1 := rfl
@[simp] theorem State.setMid_mid (s : State) (k : Nat) (d : MidSlot) : (s.setMid k d).mid = if d = MidSlot.atReset then Sparse.remove k s.mid else Sparse.put k d s.mid := rfl
@[simp] theorem State.setMid_mem (s : State) (k : Nat) (d : MidSlot) : (s.setMid k d).mem = s.mem := rfl
@[simp] theorem State.setMid_rst (s : State) (k : Nat) (d : MidSlot) : (s.setMid k d).rst = s.rst := rfl
@[simp] theorem State.setMid_busRdata (s : State) (k : Nat) (d : MidSlot) : (s.setMid k d).busRdata = s.busRdata := rfl
@[simp] theorem State.setMid_inputs (s : State) (k : Nat) (d : MidSlot) : (s.setMid k d).inputs = s.inputs := rfl
@[simp] theorem State.setMid_draws (s : State) (k : Nat) (d : MidSlot) : (s.setMid k d).draws = s.draws := rfl
@[simp] theorem State.setMid_resets (s : State) (k : Nat) (d : MidSlot) : (s.setMid k d).resets = s.resets := rfl
@[simp] theorem State.setMid_readByte (s : State) (k : Nat) (d : MidSlot) (x : Nat) : (s.setMid k d).readByte x = s.readByte x := rfl
@[simp] theorem State.setMid_chan (s : State) (k : Nat) (d : MidSlot) (c : Chan) : (s.setMid k d).chan c = s.chan c := by cases c <;> rfl

/-! ### setInt -/

@[simp] theorem State.setInt_allowNoenc (s : State) (bits : BitVec 5) : (s.setInt bits).allowNoenc = s.allowNoenc := rfl
@[simp] theorem State.setInt_latch (s : State) (bits : BitVec 5) : (s.setInt bits).latch = s.latch := rfl
@[simp] theorem State.setInt_err (s : State) (bits : BitVec 5) : (s.setInt bits).err = s.err := rfl
@[simp] theorem State.setInt_lastOp (s : State) (bits : BitVec 5) : (s.setInt bits).lastOp = s.lastOp := rfl
@[simp] theorem State.setInt_arg0 (s : State) (bits : BitVec 5) : (s.setInt bits).arg0 = s.arg0 := rfl
@[simp] theorem State.setInt_result0 (s : State) (bits : BitVec 5) : (s.setInt bits).result0 = s.result0 := rfl
@[simp] theorem State.setInt_result1 (s : State) (bits : BitVec 5) : (s.setInt bits).result1 = s.result1 := rfl
@[simp] theorem State.setInt_intStatus (s : State) (bits : BitVec 5) : (s.setInt bits).intStatus = s.intStatus ||| bits := rfl
@[simp] theorem State.setInt_intEnable (s : State) (bits : BitVec 5) : (s.setInt bits).intEnable = s.intEnable := rfl
@[simp] theorem State.setInt_crcPoly (s : State) (bits : BitVec 5) : (s.setInt bits).crcPoly = s.crcPoly := rfl
@[simp] theorem State.setInt_crcInit (s : State) (bits : BitVec 5) : (s.setInt bits).crcInit = s.crcInit := rfl
@[simp] theorem State.setInt_crcOrder (s : State) (bits : BitVec 5) : (s.setInt bits).crcOrder = s.crcOrder := rfl
@[simp] theorem State.setInt_cpr (s : State) (bits : BitVec 5) : (s.setInt bits).cpr = s.cpr := rfl
@[simp] theorem State.setInt_curKey (s : State) (bits : BitVec 5) : (s.setInt bits).curKey = s.curKey := rfl
@[simp] theorem State.setInt_oldKey (s : State) (bits : BitVec 5) : (s.setInt bits).oldKey = s.oldKey := rfl
@[simp] theorem State.setInt_oldValid (s : State) (bits : BitVec 5) : (s.setInt bits).oldValid = s.oldValid := rfl
@[simp] theorem State.setInt_parse (s : State) (bits : BitVec 5) : (s.setInt bits).parse = s.parse := rfl
@[simp] theorem State.setInt_ch0 (s : State) (bits : BitVec 5) : (s.setInt bits).ch0 = s.ch0 := rfl
@[simp] theorem State.setInt_ch1 (s : State) (bits : BitVec 5) : (s.setInt bits).ch1 = s.ch1 := rfl
@[simp] theorem State.setInt_mid (s : State) (bits : BitVec 5) : (s.setInt bits).mid = s.mid := rfl
@[simp] theorem State.setInt_mem (s : State) (bits : BitVec 5) : (s.setInt bits).mem = s.mem := rfl
@[simp] theorem State.setInt_rst (s : State) (bits : BitVec 5) : (s.setInt bits).rst = s.rst := rfl
@[simp] theorem State.setInt_busRdata (s : State) (bits : BitVec 5) : (s.setInt bits).busRdata = s.busRdata := rfl
@[simp] theorem State.setInt_inputs (s : State) (bits : BitVec 5) : (s.setInt bits).inputs = s.inputs := rfl
@[simp] theorem State.setInt_draws (s : State) (bits : BitVec 5) : (s.setInt bits).draws = s.draws := rfl
@[simp] theorem State.setInt_resets (s : State) (bits : BitVec 5) : (s.setInt bits).resets = s.resets := rfl
@[simp] theorem State.setInt_readByte (s : State) (bits : BitVec 5) (x : Nat) : (s.setInt bits).readByte x = s.readByte x := rfl
@[simp] theorem State.setInt_midSlot (s : State) (bits : BitVec 5) (j : Nat) : (s.setInt bits).midSlot j = s.midSlot j := rfl
@[simp] theorem State.setInt_chan (s : State) (bits : BitVec 5) (c : Chan) : (s.setInt bits).chan c = s.chan c := by cases c <;> rfl

/-! ### event -/

@[simp] theorem State.event_allowNoenc (s : State) (n : Chan) : (s.event n).allowNoenc = s.allowNoenc := rfl
@[simp] theorem State.event_latch (s : State) (n : Chan) : (s.event n).latch = s.latch := rfl
@[simp] theorem State.event_err (s : State) (n : Chan) : (s.event n).err = s.err := rfl
@[simp] theorem State.event_lastOp (s : State) (n : Chan) : (s.event n).lastOp = s.lastOp := rfl
@[simp] theorem State.event_arg0 (s : State) (n : Chan) : (s.event n).arg0 = s.arg0 := rfl
@[simp] theorem State.event_result0 (s : State) (n : Chan) : (s.event n).result0 = s.result0 := rfl
@[simp] theorem State.event_result1 (s : State) (n : Chan) : (s.event n).result1 = s.result1 := rfl
@[simp] theorem State.event_intStatus (s : State) (n : Chan) : (s.event n).intStatus = s.intStatus ||| intArb n := rfl
@[simp] theorem State.event_intEnable (s : State) (n : Chan) : (s.event n).intEnable = s.intEnable := rfl
@[simp] theorem State.event_crcPoly (s : State) (n : Chan) : (s.event n).crcPoly = s.crcPoly := rfl
@[simp] theorem State.event_crcInit (s : State) (n : Chan) : (s.event n).crcInit = s.crcInit := rfl
@[simp] theorem State.event_crcOrder (s : State) (n : Chan) : (s.event n).crcOrder = s.crcOrder := rfl
@[simp] theorem State.event_cpr (s : State) (n : Chan) : (s.event n).cpr = s.cpr := rfl
@[simp] theorem State.event_curKey (s : State) (n : Chan) : (s.event n).curKey = s.curKey := rfl
@[simp] theorem State.event_oldKey (s : State) (n : Chan) : (s.event n).oldKey = s.oldKey := rfl
@[simp] theorem State.event_oldValid (s : State) (n : Chan) : (s.event n).oldValid = s.oldValid := rfl
@[simp] theorem State.event_parse (s : State) (n : Chan) : (s.event n).parse = s.parse := rfl
@[simp] theorem State.event_ch0 (s : State) (n : Chan) : (s.event n).ch0 = s.ch0 := rfl
@[simp] theorem State.event_ch1 (s : State) (n : Chan) : (s.event n).ch1 = s.ch1 := rfl
@[simp] theorem State.event_mid (s : State) (n : Chan) : (s.event n).mid = s.mid := rfl
@[simp] theorem State.event_mem (s : State) (n : Chan) : (s.event n).mem = s.mem := rfl
@[simp] theorem State.event_rst (s : State) (n : Chan) : (s.event n).rst = s.rst := rfl
@[simp] theorem State.event_busRdata (s : State) (n : Chan) : (s.event n).busRdata = s.busRdata := rfl
@[simp] theorem State.event_inputs (s : State) (n : Chan) : (s.event n).inputs = s.inputs := rfl
@[simp] theorem State.event_draws (s : State) (n : Chan) : (s.event n).draws = s.draws := rfl
@[simp] theorem State.event_resets (s : State) (n : Chan) : (s.event n).resets = s.resets := rfl
@[simp] theorem State.event_readByte (s : State) (n : Chan) (x : Nat) : (s.event n).readByte x = s.readByte x := rfl
@[simp] theorem State.event_midSlot (s : State) (n : Chan) (j : Nat) : (s.event n).midSlot j = s.midSlot j := rfl
@[simp] theorem State.event_chan (s : State) (n : Chan) (c : Chan) : (s.event n).chan c = s.chan c := by cases c <;> rfl

/-! ### complete -/

@[simp] theorem State.complete_allowNoenc (s : State) (e : ErrCode) : (s.complete e).allowNoenc = s.allowNoenc := rfl
@[simp] theorem State.complete_latch (s : State) (e : ErrCode) : (s.complete e).latch = none := rfl
@[simp] theorem State.complete_err (s : State) (e : ErrCode) : (s.complete e).err = e := rfl
@[simp] theorem State.complete_lastOp (s : State) (e : ErrCode) : (s.complete e).lastOp = s.lastOp := rfl
@[simp] theorem State.complete_arg0 (s : State) (e : ErrCode) : (s.complete e).arg0 = s.arg0 := rfl
@[simp] theorem State.complete_result0 (s : State) (e : ErrCode) : (s.complete e).result0 = s.result0 := rfl
@[simp] theorem State.complete_result1 (s : State) (e : ErrCode) : (s.complete e).result1 = s.result1 := rfl
@[simp] theorem State.complete_intStatus (s : State) (e : ErrCode) : (s.complete e).intStatus = s.intStatus ||| completionBits e := rfl
@[simp] theorem State.complete_intEnable (s : State) (e : ErrCode) : (s.complete e).intEnable = s.intEnable := rfl
@[simp] theorem State.complete_crcPoly (s : State) (e : ErrCode) : (s.complete e).crcPoly = s.crcPoly := rfl
@[simp] theorem State.complete_crcInit (s : State) (e : ErrCode) : (s.complete e).crcInit = s.crcInit := rfl
@[simp] theorem State.complete_crcOrder (s : State) (e : ErrCode) : (s.complete e).crcOrder = s.crcOrder := rfl
@[simp] theorem State.complete_cpr (s : State) (e : ErrCode) : (s.complete e).cpr = s.cpr := rfl
@[simp] theorem State.complete_curKey (s : State) (e : ErrCode) : (s.complete e).curKey = s.curKey := rfl
@[simp] theorem State.complete_oldKey (s : State) (e : ErrCode) : (s.complete e).oldKey = s.oldKey := rfl
@[simp] theorem State.complete_oldValid (s : State) (e : ErrCode) : (s.complete e).oldValid = s.oldValid := rfl
@[simp] theorem State.complete_parse (s : State) (e : ErrCode) : (s.complete e).parse = s.parse := rfl
@[simp] theorem State.complete_ch0 (s : State) (e : ErrCode) : (s.complete e).ch0 = s.ch0 := rfl
@[simp] theorem State.complete_ch1 (s : State) (e : ErrCode) : (s.complete e).ch1 = s.ch1 := rfl
@[simp] theorem State.complete_mid (s : State) (e : ErrCode) : (s.complete e).mid = s.mid := rfl
@[simp] theorem State.complete_mem (s : State) (e : ErrCode) : (s.complete e).mem = s.mem := rfl
@[simp] theorem State.complete_rst (s : State) (e : ErrCode) : (s.complete e).rst = s.rst := rfl
@[simp] theorem State.complete_busRdata (s : State) (e : ErrCode) : (s.complete e).busRdata = s.busRdata := rfl
@[simp] theorem State.complete_inputs (s : State) (e : ErrCode) : (s.complete e).inputs = s.inputs := rfl
@[simp] theorem State.complete_draws (s : State) (e : ErrCode) : (s.complete e).draws = s.draws := rfl
@[simp] theorem State.complete_resets (s : State) (e : ErrCode) : (s.complete e).resets = s.resets := rfl
@[simp] theorem State.complete_readByte (s : State) (e : ErrCode) (x : Nat) : (s.complete e).readByte x = s.readByte x := rfl
@[simp] theorem State.complete_midSlot (s : State) (e : ErrCode) (j : Nat) : (s.complete e).midSlot j = s.midSlot j := rfl
@[simp] theorem State.complete_chan (s : State) (e : ErrCode) (c : Chan) : (s.complete e).chan c = s.chan c := by cases c <;> rfl

/-! ### accept -/

@[simp] theorem State.accept_allowNoenc (s : State) (w : Word) : (s.accept w).allowNoenc = s.allowNoenc := rfl
@[simp] theorem State.accept_latch (s : State) (w : Word) : (s.accept w).latch = some w := rfl
@[simp] theorem State.accept_err (s : State) (w : Word) : (s.accept w).err = .none := rfl
@[simp] theorem State.accept_lastOp (s : State) (w : Word) : (s.accept w).lastOp = w.extractLsb' 0 8 := rfl
@[simp] theorem State.accept_arg0 (s : State) (w : Word) : (s.accept w).arg0 = s.arg0 := rfl
@[simp] theorem State.accept_result0 (s : State) (w : Word) : (s.accept w).result0 = s.result0 := rfl
@[simp] theorem State.accept_result1 (s : State) (w : Word) : (s.accept w).result1 = s.result1 := rfl
@[simp] theorem State.accept_intStatus (s : State) (w : Word) : (s.accept w).intStatus = s.intStatus := rfl
@[simp] theorem State.accept_intEnable (s : State) (w : Word) : (s.accept w).intEnable = s.intEnable := rfl
@[simp] theorem State.accept_crcPoly (s : State) (w : Word) : (s.accept w).crcPoly = s.crcPoly := rfl
@[simp] theorem State.accept_crcInit (s : State) (w : Word) : (s.accept w).crcInit = s.crcInit := rfl
@[simp] theorem State.accept_crcOrder (s : State) (w : Word) : (s.accept w).crcOrder = s.crcOrder := rfl
@[simp] theorem State.accept_cpr (s : State) (w : Word) : (s.accept w).cpr = s.cpr := rfl
@[simp] theorem State.accept_curKey (s : State) (w : Word) : (s.accept w).curKey = s.curKey := rfl
@[simp] theorem State.accept_oldKey (s : State) (w : Word) : (s.accept w).oldKey = s.oldKey := rfl
@[simp] theorem State.accept_oldValid (s : State) (w : Word) : (s.accept w).oldValid = s.oldValid := rfl
@[simp] theorem State.accept_parse (s : State) (w : Word) : (s.accept w).parse = s.parse := rfl
@[simp] theorem State.accept_ch0 (s : State) (w : Word) : (s.accept w).ch0 = s.ch0 := rfl
@[simp] theorem State.accept_ch1 (s : State) (w : Word) : (s.accept w).ch1 = s.ch1 := rfl
@[simp] theorem State.accept_mid (s : State) (w : Word) : (s.accept w).mid = s.mid := rfl
@[simp] theorem State.accept_mem (s : State) (w : Word) : (s.accept w).mem = s.mem := rfl
@[simp] theorem State.accept_rst (s : State) (w : Word) : (s.accept w).rst = s.rst := rfl
@[simp] theorem State.accept_busRdata (s : State) (w : Word) : (s.accept w).busRdata = s.busRdata := rfl
@[simp] theorem State.accept_inputs (s : State) (w : Word) : (s.accept w).inputs = s.inputs := rfl
@[simp] theorem State.accept_draws (s : State) (w : Word) : (s.accept w).draws = s.draws := rfl
@[simp] theorem State.accept_resets (s : State) (w : Word) : (s.accept w).resets = s.resets := rfl
@[simp] theorem State.accept_readByte (s : State) (w : Word) (x : Nat) : (s.accept w).readByte x = s.readByte x := rfl
@[simp] theorem State.accept_midSlot (s : State) (w : Word) (j : Nat) : (s.accept w).midSlot j = s.midSlot j := rfl
@[simp] theorem State.accept_chan (s : State) (w : Word) (c : Chan) : (s.accept w).chan c = s.chan c := by cases c <;> rfl

/-! ### readFree -/

@[simp] theorem State.readFree_allowNoenc (s : State) : (s.readFree).allowNoenc = s.allowNoenc := rfl
@[simp] theorem State.readFree_latch (s : State) : (s.readFree).latch = s.latch := rfl
@[simp] theorem State.readFree_err (s : State) : (s.readFree).err = s.err := rfl
@[simp] theorem State.readFree_lastOp (s : State) : (s.readFree).lastOp = s.lastOp := rfl
@[simp] theorem State.readFree_arg0 (s : State) : (s.readFree).arg0 = s.arg0 := rfl
@[simp] theorem State.readFree_result0 (s : State) : (s.readFree).result0 = s.result0 := rfl
@[simp] theorem State.readFree_result1 (s : State) : (s.readFree).result1 = s.result1 := rfl
@[simp] theorem State.readFree_intStatus (s : State) : (s.readFree).intStatus = s.intStatus := rfl
@[simp] theorem State.readFree_intEnable (s : State) : (s.readFree).intEnable = s.intEnable := rfl
@[simp] theorem State.readFree_crcPoly (s : State) : (s.readFree).crcPoly = s.crcPoly := rfl
@[simp] theorem State.readFree_crcInit (s : State) : (s.readFree).crcInit = s.crcInit := rfl
@[simp] theorem State.readFree_crcOrder (s : State) : (s.readFree).crcOrder = s.crcOrder := rfl
@[simp] theorem State.readFree_cpr (s : State) : (s.readFree).cpr = s.cpr := rfl
@[simp] theorem State.readFree_curKey (s : State) : (s.readFree).curKey = s.curKey := rfl
@[simp] theorem State.readFree_oldKey (s : State) : (s.readFree).oldKey = s.oldKey := rfl
@[simp] theorem State.readFree_oldValid (s : State) : (s.readFree).oldValid = s.oldValid := rfl
@[simp] theorem State.readFree_parse (s : State) : (s.readFree).parse = s.parse := rfl
@[simp] theorem State.readFree_ch0 (s : State) : (s.readFree).ch0 = s.ch0 := rfl
@[simp] theorem State.readFree_ch1 (s : State) : (s.readFree).ch1 = s.ch1 := rfl
@[simp] theorem State.readFree_mid (s : State) : (s.readFree).mid = s.mid := rfl
@[simp] theorem State.readFree_mem (s : State) : (s.readFree).mem = s.mem := rfl
@[simp] theorem State.readFree_rst (s : State) : (s.readFree).rst = s.rst := rfl
@[simp] theorem State.readFree_busRdata (s : State) : (s.readFree).busRdata = Config.freeRead s.draws := rfl
@[simp] theorem State.readFree_inputs (s : State) : (s.readFree).inputs = s.inputs := rfl
@[simp] theorem State.readFree_draws (s : State) : (s.readFree).draws = s.draws + 1 := rfl
@[simp] theorem State.readFree_resets (s : State) : (s.readFree).resets = s.resets := rfl
@[simp] theorem State.readFree_readByte (s : State) (x : Nat) : (s.readFree).readByte x = s.readByte x := rfl
@[simp] theorem State.readFree_midSlot (s : State) (j : Nat) : (s.readFree).midSlot j = s.midSlot j := rfl
@[simp] theorem State.readFree_chan (s : State) (c : Chan) : (s.readFree).chan c = s.chan c := by cases c <;> rfl

/-! ### setChan -/

@[simp] theorem State.setChan_allowNoenc (s : State) (n : Chan) (c : Channel) : (s.setChan n c).allowNoenc = s.allowNoenc := by
  cases n <;> rfl
@[simp] theorem State.setChan_latch (s : State) (n : Chan) (c : Channel) : (s.setChan n c).latch = s.latch := by
  cases n <;> rfl
@[simp] theorem State.setChan_err (s : State) (n : Chan) (c : Channel) : (s.setChan n c).err = s.err := by
  cases n <;> rfl
@[simp] theorem State.setChan_lastOp (s : State) (n : Chan) (c : Channel) : (s.setChan n c).lastOp = s.lastOp := by
  cases n <;> rfl
@[simp] theorem State.setChan_arg0 (s : State) (n : Chan) (c : Channel) : (s.setChan n c).arg0 = s.arg0 := by
  cases n <;> rfl
@[simp] theorem State.setChan_result0 (s : State) (n : Chan) (c : Channel) : (s.setChan n c).result0 = s.result0 := by
  cases n <;> rfl
@[simp] theorem State.setChan_result1 (s : State) (n : Chan) (c : Channel) : (s.setChan n c).result1 = s.result1 := by
  cases n <;> rfl
@[simp] theorem State.setChan_intStatus (s : State) (n : Chan) (c : Channel) : (s.setChan n c).intStatus = s.intStatus := by
  cases n <;> rfl
@[simp] theorem State.setChan_intEnable (s : State) (n : Chan) (c : Channel) : (s.setChan n c).intEnable = s.intEnable := by
  cases n <;> rfl
@[simp] theorem State.setChan_crcPoly (s : State) (n : Chan) (c : Channel) : (s.setChan n c).crcPoly = s.crcPoly := by
  cases n <;> rfl
@[simp] theorem State.setChan_crcInit (s : State) (n : Chan) (c : Channel) : (s.setChan n c).crcInit = s.crcInit := by
  cases n <;> rfl
@[simp] theorem State.setChan_crcOrder (s : State) (n : Chan) (c : Channel) : (s.setChan n c).crcOrder = s.crcOrder := by
  cases n <;> rfl
@[simp] theorem State.setChan_cpr (s : State) (n : Chan) (c : Channel) : (s.setChan n c).cpr = s.cpr := by
  cases n <;> rfl
@[simp] theorem State.setChan_curKey (s : State) (n : Chan) (c : Channel) : (s.setChan n c).curKey = s.curKey := by
  cases n <;> rfl
@[simp] theorem State.setChan_oldKey (s : State) (n : Chan) (c : Channel) : (s.setChan n c).oldKey = s.oldKey := by
  cases n <;> rfl
@[simp] theorem State.setChan_oldValid (s : State) (n : Chan) (c : Channel) : (s.setChan n c).oldValid = s.oldValid := by
  cases n <;> rfl
@[simp] theorem State.setChan_parse (s : State) (n : Chan) (c : Channel) : (s.setChan n c).parse = s.parse := by
  cases n <;> rfl
@[simp] theorem State.setChan_mid (s : State) (n : Chan) (c : Channel) : (s.setChan n c).mid = s.mid := by
  cases n <;> rfl
@[simp] theorem State.setChan_mem (s : State) (n : Chan) (c : Channel) : (s.setChan n c).mem = s.mem := by
  cases n <;> rfl
@[simp] theorem State.setChan_rst (s : State) (n : Chan) (c : Channel) : (s.setChan n c).rst = s.rst := by
  cases n <;> rfl
@[simp] theorem State.setChan_busRdata (s : State) (n : Chan) (c : Channel) : (s.setChan n c).busRdata = s.busRdata := by
  cases n <;> rfl
@[simp] theorem State.setChan_inputs (s : State) (n : Chan) (c : Channel) : (s.setChan n c).inputs = s.inputs := by
  cases n <;> rfl
@[simp] theorem State.setChan_draws (s : State) (n : Chan) (c : Channel) : (s.setChan n c).draws = s.draws := by
  cases n <;> rfl
@[simp] theorem State.setChan_resets (s : State) (n : Chan) (c : Channel) : (s.setChan n c).resets = s.resets := by
  cases n <;> rfl
@[simp] theorem State.setChan_readByte (s : State) (n : Chan) (c : Channel) (x : Nat) : (s.setChan n c).readByte x = s.readByte x := by
  cases n <;> rfl
@[simp] theorem State.setChan_midSlot (s : State) (n : Chan) (c : Channel) (j : Nat) : (s.setChan n c).midSlot j = s.midSlot j := by
  cases n <;> rfl

/-! ### eventIf -/

@[simp] theorem State.eventIf_allowNoenc (s : State) (n : Chan) (r : Bool) : (s.eventIf n r).allowNoenc = s.allowNoenc := by
  cases r <;> rfl
@[simp] theorem State.eventIf_latch (s : State) (n : Chan) (r : Bool) : (s.eventIf n r).latch = s.latch := by
  cases r <;> rfl
@[simp] theorem State.eventIf_err (s : State) (n : Chan) (r : Bool) : (s.eventIf n r).err = s.err := by
  cases r <;> rfl
@[simp] theorem State.eventIf_lastOp (s : State) (n : Chan) (r : Bool) : (s.eventIf n r).lastOp = s.lastOp := by
  cases r <;> rfl
@[simp] theorem State.eventIf_arg0 (s : State) (n : Chan) (r : Bool) : (s.eventIf n r).arg0 = s.arg0 := by
  cases r <;> rfl
@[simp] theorem State.eventIf_result0 (s : State) (n : Chan) (r : Bool) : (s.eventIf n r).result0 = s.result0 := by
  cases r <;> rfl
@[simp] theorem State.eventIf_result1 (s : State) (n : Chan) (r : Bool) : (s.eventIf n r).result1 = s.result1 := by
  cases r <;> rfl
@[simp] theorem State.eventIf_intEnable (s : State) (n : Chan) (r : Bool) : (s.eventIf n r).intEnable = s.intEnable := by
  cases r <;> rfl
@[simp] theorem State.eventIf_crcPoly (s : State) (n : Chan) (r : Bool) : (s.eventIf n r).crcPoly = s.crcPoly := by
  cases r <;> rfl
@[simp] theorem State.eventIf_crcInit (s : State) (n : Chan) (r : Bool) : (s.eventIf n r).crcInit = s.crcInit := by
  cases r <;> rfl
@[simp] theorem State.eventIf_crcOrder (s : State) (n : Chan) (r : Bool) : (s.eventIf n r).crcOrder = s.crcOrder := by
  cases r <;> rfl
@[simp] theorem State.eventIf_cpr (s : State) (n : Chan) (r : Bool) : (s.eventIf n r).cpr = s.cpr := by
  cases r <;> rfl
@[simp] theorem State.eventIf_curKey (s : State) (n : Chan) (r : Bool) : (s.eventIf n r).curKey = s.curKey := by
  cases r <;> rfl
@[simp] theorem State.eventIf_oldKey (s : State) (n : Chan) (r : Bool) : (s.eventIf n r).oldKey = s.oldKey := by
  cases r <;> rfl
@[simp] theorem State.eventIf_oldValid (s : State) (n : Chan) (r : Bool) : (s.eventIf n r).oldValid = s.oldValid := by
  cases r <;> rfl
@[simp] theorem State.eventIf_parse (s : State) (n : Chan) (r : Bool) : (s.eventIf n r).parse = s.parse := by
  cases r <;> rfl
@[simp] theorem State.eventIf_ch0 (s : State) (n : Chan) (r : Bool) : (s.eventIf n r).ch0 = s.ch0 := by
  cases r <;> rfl
@[simp] theorem State.eventIf_ch1 (s : State) (n : Chan) (r : Bool) : (s.eventIf n r).ch1 = s.ch1 := by
  cases r <;> rfl
@[simp] theorem State.eventIf_mid (s : State) (n : Chan) (r : Bool) : (s.eventIf n r).mid = s.mid := by
  cases r <;> rfl
@[simp] theorem State.eventIf_mem (s : State) (n : Chan) (r : Bool) : (s.eventIf n r).mem = s.mem := by
  cases r <;> rfl
@[simp] theorem State.eventIf_rst (s : State) (n : Chan) (r : Bool) : (s.eventIf n r).rst = s.rst := by
  cases r <;> rfl
@[simp] theorem State.eventIf_busRdata (s : State) (n : Chan) (r : Bool) : (s.eventIf n r).busRdata = s.busRdata := by
  cases r <;> rfl
@[simp] theorem State.eventIf_inputs (s : State) (n : Chan) (r : Bool) : (s.eventIf n r).inputs = s.inputs := by
  cases r <;> rfl
@[simp] theorem State.eventIf_draws (s : State) (n : Chan) (r : Bool) : (s.eventIf n r).draws = s.draws := by
  cases r <;> rfl
@[simp] theorem State.eventIf_resets (s : State) (n : Chan) (r : Bool) : (s.eventIf n r).resets = s.resets := by
  cases r <;> rfl
@[simp] theorem State.eventIf_readByte (s : State) (n : Chan) (r : Bool) (x : Nat) : (s.eventIf n r).readByte x = s.readByte x := by
  cases r <;> rfl
@[simp] theorem State.eventIf_midSlot (s : State) (n : Chan) (r : Bool) (j : Nat) : (s.eventIf n r).midSlot j = s.midSlot j := by
  cases r <;> rfl

@[simp] theorem State.eventIf_intStatus (s : State) (n : Chan) (r : Bool) :
    (s.eventIf n r).intStatus = if r then s.intStatus ||| intArb n else s.intStatus := by
  cases r <;> rfl

@[simp] theorem State.eventIf_chan (s : State) (n c : Chan) (r : Bool) : (s.eventIf n r).chan c = s.chan c := by
  cases r <;> cases c <;> rfl

@[simp] theorem State.setChan_chan_self (s : State) (n : Chan) (c : Channel) : (s.setChan n c).chan n = c := by
  cases n <;> rfl

theorem State.setChan_chan_ne (s : State) {n m : Chan} (c : Channel) (h : m ≠ n) :
    (s.setChan n c).chan m = s.chan m := by
  cases n <;> cases m <;> first | rfl | exact absurd rfl h

/-! ### The named endings, and the buffers by name -/

@[simp] theorem State.done_eq (s : State) : s.done = s.complete .none := rfl

@[simp] theorem State.raise_eq (s : State) (e : ErrCode) : s.raise e = s.complete e := rfl

@[simp] theorem State.putRaw_eq (s : State) (a : Nat) (vs : List Byte) :
    s.putRaw a vs = s.writeBytes (rawBase + a) vs := rfl

@[simp] theorem State.putEnc_eq (s : State) (a : Nat) (vs : List Byte) :
    s.putEnc a vs = s.writeBytes (encBase + a) vs := rfl

@[simp] theorem State.rawRange_length (s : State) (a n : Nat) : (s.rawRange a n).length = n := by
  simp [State.rawRange]

@[simp] theorem State.encRange_length (s : State) (a n : Nat) : (s.encRange a n).length = n := by
  simp [State.encRange]

theorem State.rawRange_getElem (s : State) (a n i : Nat) (h : i < (s.rawRange a n).length) :
    (s.rawRange a n)[i] = s.readByte (rawBase + a + i) := by
  simp [State.rawRange]

theorem State.encRange_getElem (s : State) (a n i : Nat) (h : i < (s.encRange a n).length) :
    (s.encRange a n)[i] = s.readByte (encBase + a + i) := by
  simp [State.encRange]

end Sys2Proof.Machine
end

