-- ==== Sys2Proof/Laws/Sparse.lean ====
section
/-! SUPPORT. Sparse tables: what a lookup gives after an update, and that every update keeps the canonical
form. -/

namespace Sys2Proof.Machine

variable {α : Type}

theorem Sparse.find_put_self (k : Nat) (v : α) (t : List (Nat × α)) : Sparse.find k (Sparse.put k v t) = some v := by
  induction t with
  | nil => simp [Sparse.put, Sparse.find]
  | cons e t ih =>
    simp only [Sparse.put]
    split
    · simp [Sparse.find]
    · split
      · simp [Sparse.find]
      · next hne => simp [Sparse.find, Ne.symm hne, ih]

theorem Sparse.find_put_ne {k j : Nat} (h : j ≠ k) (v : α) (t : List (Nat × α)) :
    Sparse.find j (Sparse.put k v t) = Sparse.find j t := by
  induction t with
  | nil => simp [Sparse.put, Sparse.find, Ne.symm h]
  | cons e t ih =>
    simp only [Sparse.put]
    split
    · simp [Sparse.find, Ne.symm h]
    · split
      · next heq => subst heq; simp [Sparse.find, Ne.symm h]
      · simp [Sparse.find, ih]

theorem Sparse.find_remove_ne {k j : Nat} (h : j ≠ k) (t : List (Nat × α)) :
    Sparse.find j (Sparse.remove k t) = Sparse.find j t := by
  induction t with
  | nil => rfl
  | cons e t ih =>
    simp only [Sparse.remove]
    split
    · next heq => simp [Sparse.find, heq, Ne.symm h]
    · simp [Sparse.find, ih]

theorem Sparse.risingFrom_mono {lo lo' : Nat} (h : lo ≤ lo') {t : List (Nat × α)}
    (ht : Sparse.risingFrom lo' t) : Sparse.risingFrom lo t := by
  cases t with
  | nil => rfl
  | cons e t =>
    simp only [Sparse.risingFrom, Bool.and_eq_true, Nat.ble_eq] at ht ⊢
    exact ⟨by omega, ht.2⟩

theorem Sparse.find_below {lo k : Nat} (h : k < lo) {t : List (Nat × α)} (ht : Sparse.risingFrom lo t) :
    Sparse.find k t = none := by
  induction t generalizing lo with
  | nil => rfl
  | cons e t ih =>
    simp only [Sparse.risingFrom, Bool.and_eq_true, Nat.ble_eq] at ht
    simp only [Sparse.find]
    rw [if_neg (by omega), ih (by omega) ht.2]

theorem Sparse.find_remove_self (k : Nat) {lo : Nat} {t : List (Nat × α)} (ht : Sparse.risingFrom lo t) :
    Sparse.find k (Sparse.remove k t) = none := by
  induction t generalizing lo with
  | nil => rfl
  | cons e t ih =>
    simp only [Sparse.risingFrom, Bool.and_eq_true] at ht
    simp only [Sparse.remove]
    split
    · next heq => exact Sparse.find_below (by omega) ht.2
    · next hne => simp [Sparse.find, hne, ih ht.2]

theorem Sparse.risingFrom_put {lo k : Nat} (h : lo ≤ k) (v : α) {t : List (Nat × α)}
    (ht : Sparse.risingFrom lo t) : Sparse.risingFrom lo (Sparse.put k v t) := by
  induction t generalizing lo with
  | nil => simp [Sparse.put, Sparse.risingFrom, h]
  | cons e t ih =>
    simp only [Sparse.risingFrom, Bool.and_eq_true, Nat.ble_eq] at ht
    simp only [Sparse.put]
    split
    · next hlt =>
      simp only [Sparse.risingFrom, Bool.and_eq_true, Nat.ble_eq]
      exact ⟨h, by omega, ht.2⟩
    · split
      · next heq =>
        simp only [Sparse.risingFrom, Bool.and_eq_true, Nat.ble_eq]
        exact ⟨h, heq ▸ ht.2⟩
      · simp only [Sparse.risingFrom, Bool.and_eq_true, Nat.ble_eq]
        exact ⟨ht.1, ih (by omega) ht.2⟩

theorem Sparse.risingFrom_remove {lo : Nat} (k : Nat) {t : List (Nat × α)} (ht : Sparse.risingFrom lo t) :
    Sparse.risingFrom lo (Sparse.remove k t) := by
  induction t generalizing lo with
  | nil => rfl
  | cons e t ih =>
    simp only [Sparse.risingFrom, Bool.and_eq_true, Nat.ble_eq] at ht
    simp only [Sparse.remove]
    split
    · exact Sparse.risingFrom_mono (by omega) ht.2
    · simp only [Sparse.risingFrom, Bool.and_eq_true, Nat.ble_eq]
      exact ⟨ht.1, ih ht.2⟩

theorem Sparse.all_put (p : Nat × α → Bool) {k : Nat} {v : α} (h : p (k, v)) {t : List (Nat × α)}
    (ht : t.all p) : (Sparse.put k v t).all p := by
  induction t with
  | nil => simp [Sparse.put, h]
  | cons e t ih =>
    simp only [List.all_cons, Bool.and_eq_true] at ht
    simp only [Sparse.put]
    split
    · simp [h, ht.1, ht.2]
    · split
      · simp [h, ht.2]
      · simp [ht.1, ih ht.2]

theorem Sparse.all_remove (p : Nat × α → Bool) (k : Nat) {t : List (Nat × α)} (ht : t.all p) :
    (Sparse.remove k t).all p := by
  induction t with
  | nil => rfl
  | cons e t ih =>
    simp only [List.all_cons, Bool.and_eq_true] at ht
    simp only [Sparse.remove]
    split
    · exact ht.2
    · simp [ht.1, ih ht.2]

end Sys2Proof.Machine
end

