-- ==== Sys2Proof/Laws/Memory.lean ====
section
/-! SUPPORT. The buffers and the message-ID table: a read after a write, and that every operation keeps the
canonical form. -/

namespace Sys2Proof.Machine

/-- What one byte reads after a range of bytes is stored: the new byte inside the range, the old one
outside. -/
theorem State.readByte_writeBytes (s : State) (a : Nat) (vs : List Byte) (x : Nat) :
    (s.writeBytes a vs).readByte x = if a ≤ x ∧ x < a + vs.length then vs.getD (x - a) 0 else s.readByte x := by
  suffices h : ∀ (m : List Host.Cell) (a : Nat),
      (Sparse.find x (Memory.writeBytes m a vs)).getD (Config.bufferAtReset s.resets x)
        = if a ≤ x ∧ x < a + vs.length then vs.getD (x - a) 0
          else (Sparse.find x m).getD (Config.bufferAtReset s.resets x) from h s.mem a
  induction vs with
  | nil =>
    intro m a
    rw [if_neg (by simp), Memory.writeBytes]
  | cons v vs ih =>
    intro m a
    rw [Memory.writeBytes, ih]
    rcases Nat.lt_trichotomy x a with h | h | h
    · rw [if_neg (by omega), if_neg (by omega), Sparse.find_put_ne (by omega)]
    · subst h
      rw [if_neg (by omega), if_pos (by simp), Sparse.find_put_self]
      simp
    · by_cases hx : x < a + (v :: vs).length
      · rw [List.length_cons] at hx
        rw [if_pos (by omega), if_pos (by simp; omega), show x - a = (x - (a + 1)) + 1 by omega]
        simp
      · rw [List.length_cons] at hx
        rw [if_neg (by omega), if_neg (by simp; omega), Sparse.find_put_ne (by omega)]

theorem State.readByte_writeBytes_outside (s : State) {a : Nat} {vs : List Byte} {x : Nat}
    (h : x < a ∨ a + vs.length ≤ x) : (s.writeBytes a vs).readByte x = s.readByte x := by
  rw [State.readByte_writeBytes, if_neg (by omega)]

theorem State.readByte_writeBytes_inside (s : State) {a : Nat} {vs : List Byte} {i : Nat} (h : i < vs.length) :
    (s.writeBytes a vs).readByte (a + i) = vs[i] := by
  rw [State.readByte_writeBytes, if_pos (by omega), Nat.add_sub_cancel_left]
  simp [h]

/-- Storing bytes at buffer addresses keeps the canonical form. -/
theorem Memory.wf_writeBytes {m : List Host.Cell} {a : Nat} {vs : List Byte} (hm : Memory.wf m)
    (h : ∀ i, i < vs.length → isBufferAddr (a + i)) : Memory.wf (Memory.writeBytes m a vs) := by
  induction vs generalizing m a with
  | nil => exact hm
  | cons v vs ih =>
    rw [Memory.writeBytes]
    refine ih ?_ fun i hi => ?_
    · simp only [Memory.wf, Bool.and_eq_true] at hm ⊢
      exact ⟨Sparse.risingFrom_put (Nat.zero_le _) _ hm.1,
        Sparse.all_put _ (by simpa using h 0 (by simp)) hm.2⟩
    · have := h (i + 1) (by simpa using hi)
      rwa [show a + (i + 1) = a + 1 + i by omega] at this

theorem isBufferAddr_raw {i : Nat} (h : i < Config.rawBytes) : isBufferAddr (rawBase + i) := by
  simp only [isBufferAddr, Bool.or_eq_true, Bool.and_eq_true, Nat.ble_eq, Nat.blt_eq]
  omega

theorem isBufferAddr_enc {i : Nat} (h : i < Config.encBytes) : isBufferAddr (encBase + i) := by
  simp only [isBufferAddr, Bool.or_eq_true, Bool.and_eq_true, Nat.ble_eq, Nat.blt_eq]
  omega

/-- A store inside RAW_BUF keeps the canonical form. -/
theorem Memory.wf_putRaw {s : State} {a : Nat} {vs : List Byte} (hm : Memory.wf s.mem)
    (h : rawFits a vs.length) : Memory.wf (s.putRaw a vs).mem := by
  simp only [State.putRaw, State.writeBytes]
  refine Memory.wf_writeBytes hm fun i hi => ?_
  rw [Nat.add_assoc]
  exact isBufferAddr_raw (by unfold rawFits at h; omega)

/-- A store inside ENC_BUF keeps the canonical form. -/
theorem Memory.wf_putEnc {s : State} {a : Nat} {vs : List Byte} (hm : Memory.wf s.mem)
    (h : encFits a vs.length) : Memory.wf (s.putEnc a vs).mem := by
  simp only [State.putEnc, State.writeBytes]
  refine Memory.wf_writeBytes hm fun i hi => ?_
  rw [Nat.add_assoc]
  exact isBufferAddr_enc (by unfold encFits at h; omega)

theorem Memory.wf_nil : Memory.wf [] := rfl

/-- The slot written reads back, on a table in canonical form. -/
theorem State.midSlot_setMid_self (s : State) (k : Nat) (d : MidSlot) (h : MidTable.wf s.mid) :
    (s.setMid k d).midSlot k = d := by
  simp only [MidTable.wf, Bool.and_eq_true] at h
  simp only [State.midSlot, State.setMid]
  split
  · next heq => rw [Sparse.find_remove_self k h.1, heq]; rfl
  · rw [Sparse.find_put_self]; rfl

/-- Every other slot keeps its entry. -/
theorem State.midSlot_setMid_ne (s : State) {k j : Nat} (d : MidSlot) (h : j ≠ k) :
    (s.setMid k d).midSlot j = s.midSlot j := by
  simp only [State.midSlot, State.setMid]
  split
  · rw [Sparse.find_remove_ne h]
  · rw [Sparse.find_put_ne h]

/-- Writing a slot below N_DEV keeps the canonical form. -/
theorem MidTable.wf_setMid {s : State} {k : Nat} (d : MidSlot) (hk : k < Config.nDev) (h : MidTable.wf s.mid) :
    MidTable.wf (s.setMid k d).mid := by
  simp only [MidTable.wf, Bool.and_eq_true] at h ⊢
  simp only [State.setMid]
  split
  · exact ⟨Sparse.risingFrom_remove k h.1, Sparse.all_remove _ k h.2⟩
  · next hne =>
    exact ⟨Sparse.risingFrom_put (Nat.zero_le _) _ h.1, Sparse.all_put _ (by simp [hk, hne]) h.2⟩

theorem MidTable.wf_nil : MidTable.wf [] := rfl

end Sys2Proof.Machine
end

