-- ==== Sys2Proof/Laws/Frame.lean ====
section
/-! SUPPORT. Frames: what a completion leaves unchanged, given what the command wrote before it. -/

namespace Sys2Proof.Machine

theorem SameHost.refl (s : State) : SameHost s s := ⟨rfl, rfl, rfl, rfl, rfl, rfl, rfl, rfl, rfl, rfl, rfl, rfl⟩

/-- A completion of `u`, where `u` differs from `s` in the listed parts and in the channel events only, has
the frame of those parts. -/
theorem Frame.of_complete {e : ErrCode} {events : BitVec 5} {parts : List Part} {s u : State}
    (lastOp : u.lastOp = s.lastOp) (intStatus : u.intStatus = s.intStatus ||| events) (host : SameHost s u)
    (result0 : .result0 ∉ parts → u.result0 = s.result0) (result1 : .result1 ∉ parts → u.result1 = s.result1)
    (keys : .keys ∉ parts → u.curKey = s.curKey ∧ u.oldKey = s.oldKey ∧ u.oldValid = s.oldValid)
    (parse : .parse ∉ parts → u.parse = s.parse) (chan : ∀ n, .chan n ∉ parts → u.chan n = s.chan n)
    (slot : ∀ k, .slot k ∉ parts → u.midSlot k = s.midSlot k)
    (bytes : ∀ x, (∀ base n, .bytes base n ∈ parts → x < base ∨ base + n ≤ x) → u.readByte x = s.readByte x) :
    Frame e events parts s (u.complete e) where
  completed :=
    { latch := rfl
      err := rfl
      lastOp := lastOp
      intStatus := by
        show u.intStatus ||| completionBits e = _
        rw [intStatus, BitVec.or_assoc, BitVec.or_comm events, ← BitVec.or_assoc]
        unfold completionBits
        split <;> rfl }
  host := ⟨host.1, host.2, host.3, host.4, host.5, host.6, host.7, host.8, host.9, host.10, host.11, host.12⟩
  result0 := result0
  result1 := result1
  keys := keys
  parse := parse
  chan := fun n h => by cases n <;> exact chan _ h
  slot := slot
  bytes := bytes

/-- A command that only raises an error changes nothing else (40_control R184). -/
theorem Frame.raise (s : State) (e : ErrCode) : Frame e 0 [] s (s.raise e) :=
  Frame.of_complete rfl (by simp) (SameHost.refl s) (fun _ => rfl) (fun _ => rfl) (fun _ => ⟨rfl, rfl, rfl⟩)
    (fun _ => rfl) (fun _ _ => rfl) (fun _ _ => rfl) (fun _ _ => rfl)

/-- A command that only completes changes nothing else. -/
theorem Frame.done (s : State) : Frame .none 0 [] s s.done := Frame.raise s .none

end Sys2Proof.Machine
end

