-- ==== Sys2Proof/Laws/PerInstr.lean ====
section
/-! SUPPORT. One lemma per constructor of Instr: the encoded word has the reserved bits 0 and the
instruction's opcode in its OP field (30_encoding R140, R147). -/

namespace Sys2Proof

theorem fieldOp_commandWord (op : BitVec 8) (a b : Nat) (m : BitVec 2) (k : Bool) :
    fieldOp (commandWord op a b m k) = op := by
  apply BitVec.eq_of_getLsbD_eq
  intro i hi
  simp only [fieldOp, commandWord, BitVec.getLsbD_extractLsb', BitVec.getLsbD_append]
  simp [hi]

theorem fieldRsv_commandWord (op : BitVec 8) (a b : Nat) (m : BitVec 2) (k : Bool) :
    fieldRsv (commandWord op a b m k) = 0 := by
  apply BitVec.eq_of_getLsbD_eq
  intro i hi
  simp only [fieldRsv, commandWord, BitVec.getLsbD_extractLsb', BitVec.getLsbD_append]
  simp [hi, show ¬ 28 + i < 8 by omega, show ¬ 28 + i - 8 < 8 by omega, show ¬ 28 + i - 8 - 8 < 9 by omega,
    show ¬ 28 + i - 8 - 8 - 9 < 2 by omega, show ¬ 28 + i - 8 - 8 - 9 - 2 < 1 by omega]

end Sys2Proof

namespace Sys2Proof.Laws.EncodedWord

/-- The encoded word has RSV = 0 and OP = the instruction's opcode. -/
def Statement (i : Instr) : Prop := fieldRsv (encode i) = 0 ∧ fieldOp (encode i) = i.opcode

theorem nop : Statement .nop := ⟨fieldRsv_commandWord .., fieldOp_commandWord ..⟩

theorem encode (a b : Nat) : Statement (.encode a b) := ⟨fieldRsv_commandWord .., fieldOp_commandWord ..⟩

theorem decode (a b : Nat) : Statement (.decode a b) := ⟨fieldRsv_commandWord .., fieldOp_commandWord ..⟩

theorem payEncode (a b : Nat) (m : BitVec 2) : Statement (.payEncode a b m) :=
  ⟨fieldRsv_commandWord .., fieldOp_commandWord ..⟩

theorem payDecode (a b : Nat) : Statement (.payDecode a b) := ⟨fieldRsv_commandWord .., fieldOp_commandWord ..⟩

theorem crcCompute (a b : Nat) (k : StartSel) : Statement (.crcCompute a b k) :=
  ⟨fieldRsv_commandWord .., fieldOp_commandWord ..⟩

theorem crcCheck (a b : Nat) (k : StartSel) : Statement (.crcCheck a b k) :=
  ⟨fieldRsv_commandWord .., fieldOp_commandWord ..⟩

theorem crcFill (a b : Nat) (k : StartSel) : Statement (.crcFill a b k) :=
  ⟨fieldRsv_commandWord .., fieldOp_commandWord ..⟩

theorem pidInfo : Statement .pidInfo := ⟨fieldRsv_commandWord .., fieldOp_commandWord ..⟩

theorem xteaEnc (a b : Nat) (m : BitVec 2) (k : KeySel) : Statement (.xteaEnc a b m k) :=
  ⟨fieldRsv_commandWord .., fieldOp_commandWord ..⟩

theorem xteaDec (a b : Nat) (m : BitVec 2) (k : KeySel) : Statement (.xteaDec a b m k) :=
  ⟨fieldRsv_commandWord .., fieldOp_commandWord ..⟩

theorem openPayload (a b : Nat) (m : BitVec 2) (k : KeySel) : Statement (.openPayload a b m k) :=
  ⟨fieldRsv_commandWord .., fieldOp_commandWord ..⟩

theorem keyRotate : Statement .keyRotate := ⟨fieldRsv_commandWord .., fieldOp_commandWord ..⟩

theorem keyCommit : Statement .keyCommit := ⟨fieldRsv_commandWord .., fieldOp_commandWord ..⟩

theorem midNext (a : Nat) : Statement (.midNext a) := ⟨fieldRsv_commandWord .., fieldOp_commandWord ..⟩

theorem midValidate (a : Nat) : Statement (.midValidate a) := ⟨fieldRsv_commandWord .., fieldOp_commandWord ..⟩

theorem ackParse (a b : Nat) (k : FrameKind) : Statement (.ackParse a b k) :=
  ⟨fieldRsv_commandWord .., fieldOp_commandWord ..⟩

theorem nackFatal : Statement .nackFatal := ⟨fieldRsv_commandWord .., fieldOp_commandWord ..⟩

theorem arbStart (k : Chan) : Statement (.arbStart k) := ⟨fieldRsv_commandWord .., fieldOp_commandWord ..⟩

theorem arbResend (k : Chan) : Statement (.arbResend k) := ⟨fieldRsv_commandWord .., fieldOp_commandWord ..⟩

theorem arbRespond (k : Chan) : Statement (.arbRespond k) := ⟨fieldRsv_commandWord .., fieldOp_commandWord ..⟩

theorem arbAbort (k : Chan) : Statement (.arbAbort k) := ⟨fieldRsv_commandWord .., fieldOp_commandWord ..⟩

end Sys2Proof.Laws.EncodedWord
end

