-- ==== Sys2Proof/Laws/Step.lean ====
section
/-! SUPPORT. Everything one step, one TICK and one response can do, as case lemmas. -/

namespace Sys2Proof.Machine

/-- Everything the engine's turn can do. -/
theorem engineTurn_cases {s t : State} (h : engineTurn s = .next t) :
    (t = s ∧ (s.latch = none ∨ s.rst = true)) ∨
    (∃ w i, s.latch = some w ∧ s.rst = false ∧ decode w = .ok i ∧ exec i s = .next t) ∨
    (∃ w e, s.latch = some w ∧ s.rst = false ∧ decode w = .error e ∧ t = s.raise .illegalCmd) := by
  unfold engineTurn at h
  cases hl : s.latch with
  | none => rw [hl] at h; exact .inl ⟨(Host.Outcome.next.inj h).symm, .inl rfl⟩
  | some w =>
    rw [hl] at h
    cases hr : s.rst with
    | true => simp only [hr, if_true] at h; exact .inl ⟨(Host.Outcome.next.inj h).symm, .inr rfl⟩
    | false =>
      simp only [hr, Bool.false_eq_true, if_false, runCommand] at h
      cases hd : decode w with
      | ok i => rw [hd] at h; exact .inr (.inl ⟨w, i, rfl, rfl, hd, h⟩)
      | error e => rw [hd] at h; exact .inr (.inr ⟨w, e, rfl, rfl, hd, (Host.Outcome.next.inj h).symm⟩)

/-- Everything one step can do. -/
theorem step_cases {s t : State} (h : step s = .next t) :
    (s.inputs = [] ∧ engineTurn s = .next t) ∨
    (∃ rest, s.inputs = .engine :: rest ∧ engineTurn { s with inputs := rest } = .next t) ∨
    (∃ a rest, s.inputs = .read a :: rest ∧
      t = if s.rst then State.readFree { s with inputs := rest } else State.hostRead { s with inputs := rest } a) ∨
    (∃ a v rest, s.inputs = .write a v :: rest ∧
      t = if s.rst then { s with inputs := rest } else State.hostWrite { s with inputs := rest } a v) ∨
    (∃ rest, s.inputs = .tick :: rest ∧
      t = if s.rst then { s with inputs := rest } else State.tick { s with inputs := rest }) ∨
    (∃ b rest, s.inputs = .rst b :: rest ∧
      t = if b then State.takeReset { s with inputs := rest } else { s with inputs := rest, rst := false }) := by
  unfold step nextStep at h
  cases hi : s.inputs with
  | nil => rw [hi] at h; exact .inl ⟨rfl, h⟩
  | cons i rest =>
    rw [hi] at h
    cases i with
    | read a => exact .inr (.inr (.inl ⟨a, rest, rfl, (Host.Outcome.next.inj h).symm⟩))
    | write a v => exact .inr (.inr (.inr (.inl ⟨a, v, rest, rfl, (Host.Outcome.next.inj h).symm⟩)))
    | readWrite a v => exact absurd h (by simp [applyInput])
    | tick => exact .inr (.inr (.inr (.inr (.inl ⟨rest, rfl, (Host.Outcome.next.inj h).symm⟩))))
    | rst b => exact .inr (.inr (.inr (.inr (.inr ⟨b, rest, rfl, (Host.Outcome.next.inj h).symm⟩))))
    | engine => exact .inr (.inl ⟨rest, rfl, h⟩)

/-- Everything a host read can do: it sets `busRdata` and, when the value is free, advances the draw
counter. -/
theorem State.hostRead_eq (s : State) (a : BusAddr) :
    s.hostRead a = s.readFree ∨ s.hostRead a = { s with busRdata := s.readTarget (target a) } := by
  unfold State.hostRead
  split
  · exact .inl rfl
  · exact .inr rfl

/-- Everything a host write can do. -/
theorem State.hostWrite_cases (s : State) (a : BusAddr) (v : Word) :
    (target a = .cmd ∧ s.hostWrite a v = if s.busy then s.setInt intWerr else s.accept v) ∨
    (target a = .intStatus ∧ s.hostWrite a v = { s with intStatus := s.intStatus &&& ~~~ (v.extractLsb' 0 5) }) ∨
    (target a = .intEnable ∧ s.hostWrite a v = { s with intEnable := v.extractLsb' 0 5 }) ∨
    ((target a).guarded = false ∧ s.hostWrite a v = s) ∨
    ((target a).guarded = true ∧
      s.hostWrite a v = if s.busy then s.setInt intWerr else s.writeTarget (target a) v) := by
  unfold State.hostWrite
  cases ht : target a <;> simp [Target.guarded]

/-- Everything one TICK can do to a channel (46_acknack R382). -/
theorem Channel.tick_cases (c : Channel) :
    (c.state ≠ .wait ∧ c.state ≠ .pause ∧ c.tick = (c, false)) ∨
    ((c.state = .wait ∨ c.state = .pause) ∧ c.remain - 1 ≠ 0 ∧
      c.tick = ({ c with remain := c.remain - 1 }, false)) ∨
    ((c.state = .pause ∨ (c.state = .wait ∧ c.attempt.toNat < 8)) ∧ c.remain - 1 = 0 ∧
      c.tick = ({ c with remain := 0, state := .retryDue }, true)) ∨
    (c.state = .wait ∧ 8 ≤ c.attempt.toNat ∧ c.remain - 1 = 0 ∧
      c.tick = ({ c with remain := 0, state := .doneFail, result := c.txType.failResult, cause := .timeOut },
        true)) := by
  by_cases hs : c.state = .wait ∨ c.state = .pause
  · by_cases hz : c.remain - 1 = 0
    · have hz' : c.remain - 1#32 = 0#32 := hz
      rcases hs with hs | hs
      · by_cases ha : c.attempt.toNat < 8
        · exact .inr (.inr (.inl ⟨.inr ⟨hs, ha⟩, hz, by simp [Channel.tick, hs, hz', ha]⟩))
        · exact .inr (.inr (.inr ⟨hs, by omega, hz, by simp [Channel.tick, hs, hz', ha]⟩))
      · exact .inr (.inr (.inl ⟨.inl hs, hz, by simp [Channel.tick, hs, hz']⟩))
    · have hz' : ¬ c.remain - 1#32 = 0#32 := hz
      exact .inr (.inl ⟨hs, hz, by simp [Channel.tick, hs, hz']⟩)
  · exact .inl ⟨fun h => hs (.inl h), fun h => hs (.inr h), by simp [Channel.tick, hs]⟩

/-- Everything one TICK does to the block (46_acknack R382): each channel ticks, and its INT_STATUS bit is set
when its event is raised. -/
theorem State.tick_eq (s : State) :
    s.tick = { s with
      ch0 := s.ch0.tick.1
      ch1 := s.ch1.tick.1
      intStatus := s.intStatus ||| (if s.ch0.tick.2 then intArb .c0 else 0)
        ||| (if s.ch1.tick.2 then intArb .c1 else 0) } := by
  cases h0 : s.ch0.tick.2 <;> cases h1 : s.ch1.tick.2 <;>
    simp [State.tick, State.tickChan, State.eventIf, State.chan, State.setChan, State.event, State.setInt, h0, h1]

/-- Everything a response can do to a channel (46_acknack R377), with `c'` the channel after HANDLE, REASON
and TO_BASE are taken from the frame. -/
theorem Channel.respond_cases (c : Channel) (p : Parse) (c' : Channel)
    (hc : c' = { c with
      handle := p.handle, reason := p.reason, toBase := adjustedBase c.toBase p.handle p.value }) :
    (p.isNack = false ∧ c.respond p = (c'.succeed, true)) ∨
    (p.isNack = true ∧ p.fatal = true ∧ c.respond p = (c'.fail .nackFatal, true)) ∨
    (p.isNack = true ∧ p.fatal = false ∧ c.attempt.toNat < 8 ∧ p.handle = 11 ∧ p.value ≠ 0 ∧
      c.respond p = ({ c' with state := .pause, remain := p.value }, false)) ∨
    (p.isNack = true ∧ p.fatal = false ∧ c.attempt.toNat < 8 ∧ ¬ (p.handle = 11 ∧ p.value ≠ 0) ∧
      c.respond p = (c'.retry, true)) ∨
    (p.isNack = true ∧ p.fatal = false ∧ 8 ≤ c.attempt.toNat ∧
      c.respond p = (c'.fail .nackExhausted, true)) := by
  subst hc
  cases hn : p.isNack with
  | false => exact .inl ⟨rfl, by simp [Channel.respond, hn]⟩
  | true =>
    cases hf : p.fatal with
    | true => exact .inr (.inl ⟨rfl, rfl, by simp [Channel.respond, hn, hf]⟩)
    | false =>
      by_cases ha : c.attempt.toNat < 8
      · by_cases hp : p.handle = 11 ∧ p.value ≠ 0
        · have hv : ¬ p.value = 0#32 := hp.2
          exact .inr (.inr (.inl ⟨rfl, rfl, ha, hp.1, hp.2, by simp [Channel.respond, hn, hf, ha, hp.1, hv]⟩))
        · exact .inr (.inr (.inr (.inl ⟨rfl, rfl, ha, hp, by simp only [Channel.respond, hn, hf, if_neg hp]; simp [ha]⟩)))
      · exact .inr (.inr (.inr (.inr ⟨rfl, rfl, by omega, by simp [Channel.respond, hn, hf, ha]⟩)))

end Sys2Proof.Machine
end

