-- ==== Sys2Proof/Laws/Streams.lean ====
section
/-! SUPPORT. Bit streams: packing undoes unpacking, and each bit of a packed value. -/

namespace Sys2Proof.Machine

@[simp] theorem bitsOf_length {w : Nat} (v : BitVec w) : (bitsOf v).length = w := by simp [bitsOf]

theorem bitsOf_getElem {w : Nat} (v : BitVec w) (i : Nat) (h : i < (bitsOf v).length) :
    (bitsOf v)[i] = v.getMsbD i := by
  simp [bitsOf]

@[simp] theorem bitStream_nil {w : Nat} : bitStream ([] : List (BitVec w)) = [] := rfl

@[simp] theorem bitStream_cons {w : Nat} (v : BitVec w) (vs : List (BitVec w)) :
    bitStream (v :: vs) = bitsOf v ++ bitStream vs := rfl

@[simp] theorem bitStream_length {w : Nat} (vs : List (BitVec w)) : (bitStream vs).length = vs.length * w := by
  induction vs with
  | nil => simp
  | cons v vs ih => simp [ih, Nat.succ_mul, Nat.add_comm]

/-- Bit `i` of a packed value, counted from the most significant end, is bit `i` of the stream. -/
theorem ofBits_getMsbD (w : Nat) (bits : List Bool) (i : Nat) :
    (ofBits w bits).getMsbD i = (decide (i < w) && bits.getD i false) := by
  induction w generalizing bits i with
  | zero => simp [ofBits]
  | succ w ih =>
    rw [ofBits]
    cases i with
    | zero => cases bits <;> simp [BitVec.getMsbD, BitVec.getElem_cons]
    | succ i =>
      have key : (BitVec.cons (bits.headD false) (ofBits w bits.tail)).getMsbD (i + 1)
          = (ofBits w bits.tail).getMsbD i := by
        simp only [BitVec.getMsbD, BitVec.getLsbD_cons]
        by_cases h : i < w
        · rw [if_neg (by omega), show w + 1 - 1 - (i + 1) = w - 1 - i by omega]
          simp [h]
        · simp [h]
      rw [key, ih]
      cases bits <;> simp

/-- Packing the bits of a value, whatever follows them, gives the value. -/
theorem ofBits_bitsOf {w : Nat} (v : BitVec w) (rest : List Bool) : ofBits w (bitsOf v ++ rest) = v := by
  apply BitVec.eq_of_getMsbD_eq
  intro i hi
  rw [ofBits_getMsbD]
  simp [hi, List.getD_eq_getElem?_getD, List.getElem?_append_left, bitsOf]

@[simp] theorem chunks_length (w n : Nat) (bits : List Bool) : (chunks w n bits).length = n := by
  induction n generalizing bits with
  | zero => rfl
  | succ n ih => simp [chunks, ih]

/-- Value `j` of a stream is packed from its bits `w * j` on. -/
theorem chunks_getElem (w n : Nat) (bits : List Bool) (j : Nat) (h : j < (chunks w n bits).length) :
    (chunks w n bits)[j] = ofBits w (bits.drop (w * j)) := by
  induction n generalizing bits j with
  | zero => simp at h
  | succ n ih =>
    cases j with
    | zero => simp [chunks]
    | succ j =>
      simp only [chunks, List.getElem_cons_succ]
      rw [ih, List.drop_drop, Nat.mul_succ, Nat.add_comm]

/-- Unpacking then packing gives the values back, whatever follows them in the stream. -/
theorem chunks_bitStream {w : Nat} (vs : List (BitVec w)) (rest : List Bool) :
    chunks w vs.length (bitStream vs ++ rest) = vs := by
  induction vs with
  | nil => rfl
  | cons v vs ih =>
    simp only [List.length_cons, chunks, bitStream_cons, List.append_assoc, ofBits_bitsOf]
    have hd : (bitsOf v).drop w = [] := List.drop_eq_nil_of_le (by simp)
    rw [List.drop_append_of_le_length (by simp), hd, List.nil_append, ih]

/-- A word read from its own four bytes. -/
theorem be32_bytesOf (v : Word) (rest : List Byte) : be32 (bytesOf v ++ rest) = v := by
  simp only [be32, bytesOf, List.cons_append, List.nil_append, List.getD_cons_zero, List.getD_cons_succ]
  apply BitVec.eq_of_getLsbD_eq
  intro i hi
  simp only [BitVec.getLsbD_append, BitVec.getLsbD_extractLsb']
  by_cases h1 : i < 8
  · simp [h1]
  · by_cases h2 : i < 16
    · simp [h1, show i - 8 < 8 by omega, show 8 + (i - 8) = i by omega]
    · by_cases h3 : i < 24
      · simp [h1, show ¬ i - 8 < 8 by omega, show i - 8 - 8 < 8 by omega, show 16 + (i - 8 - 8) = i by omega]
      · simp [h1, show ¬ i - 8 < 8 by omega, show ¬ i - 8 - 8 < 8 by omega, show i - 8 - 8 - 8 < 8 by omega,
          show 24 + (i - 8 - 8 - 8) = i by omega]

@[simp] theorem bytesOf_length (v : Word) : (bytesOf v).length = 4 := rfl

@[simp] theorem wireBytes_length (n : Nat) (bits : List Bool) : (wireBytes n bits).length = n := by
  simp [wireBytes]

/-- The table is injective (41_codec R200). -/
theorem encTable_injective {u v : Symbol} (h : Config.encTable u = Config.encTable v) : u = v := by
  unfold Config.encTable at h
  split at h
  · next hinj => exact hinj u v h
  · have := congrArg (fun b : Byte => b.toNat) h
    simp only [BitVec.truncate_eq_setWidth, BitVec.toNat_setWidth] at this
    apply BitVec.eq_of_toNat_eq
    omega

/-- Decoding a wire byte that encodes a value gives the value (41_codec R200). -/
theorem decTable_encTable (v : Symbol) : decTable (Config.encTable v) = some v := by
  have hmem : v ∈ allSymbols := by
    simp only [allSymbols, List.mem_map, List.mem_range]
    exact ⟨v.toNat, v.isLt, by simp⟩
  unfold decTable
  cases hf : allSymbols.find? fun u => Config.encTable u == Config.encTable v with
  | none => exact absurd (List.find?_eq_none.mp hf v hmem) (by simp)
  | some u =>
    have := List.find?_some hf
    rw [encTable_injective (beq_iff_eq.mp this)]

/-- A wire byte decodes to a value exactly when that value encodes to it (41_codec R200). -/
theorem decTable_eq_some {b : Byte} {v : Symbol} : decTable b = some v ↔ Config.encTable v = b := by
  constructor
  · intro h
    simpa using List.find?_some h
  · intro h
    rw [← h, decTable_encTable]

end Sys2Proof.Machine
end

