-- ==== Sys2Proof/Tests/Slice0.lean ====
section
/-! SUPPORT. Tests: ill-formed terms, command words written out from 30_encoding, the examples of the command
rules, and for each statement with hypotheses a concrete state and operands that meet them. -/

namespace Sys2Proof.Machine

/-! ### Helpers -/

/-- The state after a command (the same state if it stopped). -/
def ran (i : Instr) (s : State) : State :=
  match exec i s with
  | .next t => t
  | _ => s

/-- The state after `reset` with bytes in RAW_BUF. -/
def withRaw (a : Nat) (vs : List Byte) : State := State.reset.putRaw a vs

/-- The state after `reset` with ARG0. -/
def withArg (v : Word) : State := { State.reset with arg0 := v }

/-- `n` bytes of RAW_BUF. -/
def rawOf (t : State) (a n : Nat) : List Byte := t.rawRange a n

/-- The key of the examples of 44_xtea. -/
def exampleKey : Key where
  w0 := 0x00010203
  w1 := 0x04050607
  w2 := 0x08090A0B
  w3 := 0x0C0D0E0F

/-- Channel 0 as in the example of 46_acknack R375, waiting for the response with ID 0x123. -/
def waiting : Channel :=
  { Channel.atReset with toBase := 10, toStep := 5, state := .wait, attempt := 1, expId := 0x123, remain := 10 }

/-- A state whose channel 0 waits. -/
def withWaiting : State := { State.reset with ch0 := waiting }

/-! ### Well-formedness: each check refuses an ill-formed term -/

theorem test_offset_of_nine_bits_refused : (Instr.crcCompute 256 1 .crcInit).wellFormed = false := by decide
theorem test_length_of_ten_bits_refused : (Instr.crcCompute 0 512 .crcInit).wellFormed = false := by decide
theorem test_slot_of_nine_bits_refused : (Instr.midNext 256).wellFormed = false := by decide
theorem test_largest_operands_accepted : (Instr.openPayload 255 511 3 .old).wellFormed = true := by decide

/-! ### Decoding: words written out from 30_encoding R140, R147 as RSV, K, M, B, A, OP -/

theorem test_decode_nop : decode 0b0000_0_00_000000000_00000000_00000000 = .ok .nop := by decide
theorem test_decode_encode : decode 0b0000_0_00_000011000_00000000_00000001 = .ok (.encode 0 24) := by decide
theorem test_decode_decode : decode 0b0000_0_00_000000010_00000101_00000010 = .ok (.decode 5 2) := by decide
theorem test_decode_payEncode : decode 0b0000_0_11_000010000_00000000_00000011 = .ok (.payEncode 0 16 3) := by decide
theorem test_decode_payDecode : decode 0b0000_0_00_000001000_00010000_00000100 = .ok (.payDecode 16 8) := by decide
theorem test_decode_crcCompute :
    decode 0b0000_1_00_000000101_00100000_00001000 = .ok (.crcCompute 0x20 5 .arg0) := by decide
theorem test_decode_crcCheck :
    decode 0b0000_0_00_000001000_00000001_00001001 = .ok (.crcCheck 1 8 .crcInit) := by decide
theorem test_decode_crcFill :
    decode 0b0000_1_00_100000000_00000000_00001010 = .ok (.crcFill 0 256 .arg0) := by decide
theorem test_decode_pidInfo : decode 0b0000_0_00_000000000_00000000_00001100 = .ok .pidInfo := by decide
theorem test_decode_xteaEnc :
    decode 0b0000_0_01_000001000_00000000_00010000 = .ok (.xteaEnc 0 8 1 .current) := by decide
theorem test_decode_xteaDec :
    decode 0b0000_1_10_000010000_10000000_00010001 = .ok (.xteaDec 128 16 2 .old) := by decide
theorem test_decode_openPayload :
    decode 0b0000_1_01_000001000_00000000_00010010 = .ok (.openPayload 0 8 1 .old) := by decide
theorem test_decode_keyRotate : decode 0b0000_0_00_000000000_00000000_00010100 = .ok .keyRotate := by decide
theorem test_decode_keyCommit : decode 0b0000_0_00_000000000_00000000_00010101 = .ok .keyCommit := by decide
theorem test_decode_midNext : decode 0b0000_0_00_000000000_00000010_00011000 = .ok (.midNext 2) := by decide
theorem test_decode_midValidate :
    decode 0b0000_0_00_000000000_00000011_00011001 = .ok (.midValidate 3) := by decide
theorem test_decode_ackParse :
    decode 0b0000_0_00_000000111_00010000_00100000 = .ok (.ackParse 0x10 7 .ack) := by decide
theorem test_decode_nackFatal : decode 0b0000_0_00_000000000_00000000_00100001 = .ok .nackFatal := by decide
theorem test_decode_arbStart : decode 0b0000_1_00_000000000_00000000_00100100 = .ok (.arbStart .c1) := by decide
theorem test_decode_arbResend : decode 0b0000_0_00_000000000_00000000_00100101 = .ok (.arbResend .c0) := by decide
theorem test_decode_arbRespond : decode 0b0000_1_00_000000000_00000000_00100110 = .ok (.arbRespond .c1) := by decide
theorem test_decode_arbAbort : decode 0b0000_0_00_000000000_00000000_00100111 = .ok (.arbAbort .c0) := by decide
theorem test_decode_reserved_bits : decode 0x10000000 = .error .reservedBits := by decide
theorem test_decode_unassigned : decode 0x00000005 = .error .unassignedOpcode := by decide
theorem test_table_word : decodeTableWord 32 0x06100003 = some (.payEncode 0 16 3) := by decide

/-! ### The examples of the command rules -/

/-- 40_control R185. -/
theorem test_nop : (ran .nop State.reset).statusWord = 0 ∧ (ran .nop State.reset).intStatus = 1 := by decide

/-- 41_codec R204. -/
theorem test_encode :
    (ran (.encode 0 24) (withRaw 0 [0xAB, 0xCD, 0xEF])).encRange 0 4
      = [0x2A, 0x3C, 0x37, 0x2F].map Config.encTable := rfl

theorem test_encode_result : (ran (.encode 0 24) (withRaw 0 [0xAB, 0xCD, 0xEF])).result0 = 4 := rfl

/-- 41_codec R205. -/
theorem test_decode :
    rawOf (ran (.decode 0 2) (State.reset.putEnc 0 [Config.encTable 0x04, Config.encTable 0x23])) 0 2
      = [0x12, 0x30] := by
  have h : (State.reset.putEnc 0 [Config.encTable 0x04, Config.encTable 0x23]).encRange 0 2
      = [Config.encTable 0x04, Config.encTable 0x23] := rfl
  have hf : firstInvalid [Config.encTable 0x04, Config.encTable 0x23] = none := by
    simp [firstInvalid, List.findIdx?_cons, decTable_encTable]
  have hs : symbolsOf [Config.encTable 0x04, Config.encTable 0x23] = [0x04, 0x23] := by
    simp [symbolsOf, decTable_encTable]
  simp only [ran, exec, execDecode]
  rw [if_neg (by decide), show State.encOffset (State.reset.putEnc 0 _) = 0 from rfl, h, hf]
  simp only [hs]
  rfl

/-- 41_codec R207. -/
theorem test_payEncode :
    (ran (.payEncode 0 8 1) (withRaw 0 [0xD2, 0x9D, 0xF3, 0xA8, 0xBC, 0xBF, 0x4A, 0xCD])).encRange 0 11
      = [0x1D, 0x0A, 0x1D, 0x3C, 0x3A, 0x22, 0x3C, 0x2F, 0x34, 0x2B, 0x0D].map Config.encTable := rfl

/-- 41_codec R208: a length that is no payload length. -/
theorem test_payDecode_length : (ran (.payDecode 0 12) State.reset).err = .badParam := by decide

/-- 42_crc R243. -/
theorem test_crcCompute :
    (ran (.crcCompute 0 9 .crcInit) (withRaw 0 [0x31, 0x32, 0x33, 0x34, 0x35, 0x36, 0x37, 0x38, 0x39])).result0
      = 0xFB := by decide +kernel

/-- 42_crc R244. -/
theorem test_crcCheck :
    (ran (.crcCheck 0 8 .crcInit) (withRaw 0 [0xDA, 0x12, 0x34, 0x41, 0x42, 0x43, 0x44, 0x45])).err = .none := by
  decide +kernel

/-- 42_crc R244. -/
theorem test_crcCheck_fails :
    let t := ran (.crcCheck 0 8 .crcInit) (withRaw 0 [0xDA, 0x12, 0x34, 0x40, 0x42, 0x43, 0x44, 0x45])
    t.err = .crcFail ∧ t.result0 = 0xB8 ∧ t.result1 = 0xDA := by decide +kernel

/-- 42_crc R245. -/
theorem test_crcFill :
    let t := ran (.crcFill 0 8 .crcInit) (withRaw 0 [0x00, 0x12, 0x34, 0x41, 0x42, 0x43, 0x44, 0x45])
    t.readByte 0x800 = 0xDA ∧ t.result0 = 0xDA := by decide +kernel

/-- 43_packet_layout R272. -/
theorem test_pidInfo : (ran .pidInfo (withArg 0x0347)).result0 = 0x00031107 := by decide

/-- 44_xtea R296. -/
theorem test_xteaEnc :
    rawOf (ran (.xteaEnc 0 8 1 .current)
        { withRaw 0 [0x41, 0x42, 0x43, 0x44, 0x45, 0x46, 0x47, 0x48] with curKey := exampleKey }) 0 8
      = [0x49, 0x7D, 0xF3, 0xD0, 0x72, 0x61, 0x2C, 0xB5] := by decide +kernel

/-- 44_xtea R297. -/
theorem test_xteaDec :
    rawOf (ran (.xteaDec 0 8 1 .current)
        { withRaw 0 [0x49, 0x7D, 0xF3, 0xD0, 0x72, 0x61, 0x2C, 0xB5] with curKey := exampleKey }) 0 8
      = [0x41, 0x42, 0x43, 0x44, 0x45, 0x46, 0x47, 0x48] := by decide +kernel

/-- 44_xtea R298: the fallback to the old key. -/
theorem test_openPayload :
    let s := { withRaw 0 [0xD2, 0x9D, 0xF3, 0xA8, 0xBC, 0xBF, 0x4A, 0xCD] with
      curKey := { exampleKey with w3 := 0xDEADBEEF }, oldKey := exampleKey, oldValid := true }
    let t := ran (.openPayload 0 8 1 .current) s
    rawOf t 0 8 = [0xDA, 0x12, 0x34, 0x41, 0x42, 0x43, 0x44, 0x45] ∧ t.result0 = 7 := by decide +kernel

/-- 44_xtea R299. -/
theorem test_keyRotate :
    let t := ran .keyRotate { withArg 0xDEADBEEF with curKey := exampleKey }
    t.curKey = { exampleKey with w3 := 0xDEADBEEF } ∧ t.oldKey = exampleKey ∧ t.oldValid = true := by decide

/-- 44_xtea R300. -/
theorem test_keyCommit :
    let t := ran .keyCommit { State.reset with oldKey := exampleKey, oldValid := true }
    t.oldKey = exampleKey ∧ t.oldValid = false := by decide

/-- 45_msgid R342, on slot 0: the ID wraps. -/
theorem test_midNext :
    let t := ran (.midNext 0) (State.reset.setMid 0 (MidSlot.ofWord 0x0FFF2000))
    t.result0 = 0xFFF ∧ (t.midSlot 0).word = 0x00002000 := by decide

/-- 45_msgid R343, on slot 0: the next ID is accepted. -/
theorem test_midValidate :
    let t := ran (.midValidate 0) ((withArg 0x123).setMid 0 (MidSlot.ofWord 0x00003122))
    t.result0 = 2 ∧ (t.midSlot 0).word = 0x00003123 := by decide

/-- 45_msgid R343, on slot 0: an ID out of order is rejected. -/
theorem test_midValidate_rejects :
    let t := ran (.midValidate 0) ((withArg 0x125).setMid 0 (MidSlot.ofWord 0x00003123))
    t.result0 = 4 ∧ t.err = .badMsgId ∧ (t.midSlot 0).word = 0x00003123 := by decide

/-- 46_acknack R370. -/
theorem test_ackParse :
    let t := ran (.ackParse 0x10 7 .ack) (withRaw 0x10 [0x9D, 0x12, 0x31, 0xDE, 0xAD, 0xBE, 0xEF])
    t.parse.word0 = 0x00011231 ∧ t.parse.value = 0xDEADBEEF ∧ t.result0 = 0x00011231 ∧ t.result1 = 0x13 := by
  decide +kernel

/-- 46_acknack R370: the same frame with B = 6. -/
theorem test_ackParse_short :
    (ran (.ackParse 0x10 6 .ack) (withRaw 0x10 [0x9D, 0x12, 0x31, 0xDE, 0xAD, 0xBE, 0xEF])).err = .crcFail := by
  decide +kernel

/-- 46_acknack R372. -/
theorem test_nackFatal :
    ([0x00, 0x01, 0x3F, 0x40, 0x7F, 0x80, 0xBF, 0xC0, 0xFF].map fun r => (ran .nackFatal (withArg r)).result0)
      = [4, 0, 0, 2, 2, 1, 1, 3, 3] := by decide +kernel

/-- 46_acknack R375. -/
theorem test_arbStart :
    let t := ran (.arbStart .c0) { withArg 0x123 with ch0 := { Channel.atReset with toBase := 10, toStep := 5 } }
    t.ch0.stateWord = 0x01230011 ∧ t.ch0.remain = 10 := by decide +kernel

/-- 46_acknack R376, after 10 TICK events. -/
theorem test_arbResend :
    let t := ran (.arbResend .c0) ((State.tick)^[10] withWaiting)
    t.ch0.attempt = 2 ∧ t.ch0.remain = 15 ∧ t.ch0.state = .wait := by decide +kernel

/-- 46_acknack R377. -/
theorem test_arbRespond :
    let t := ran (.arbRespond .c0)
      { withWaiting with parse := { Parse.atReset with valid := true, msgId := 0x123 } }
    t.ch0.state = .doneOk ∧ t.ch0.resultWord = 0x00000101 ∧ t.parse.word0 = 0x00001230 ∧
      t.intStatus.getLsbD 3 = true := by decide +kernel

/-- 46_acknack R378, and that a second ARB_ABORT fails. -/
theorem test_arbAbort :
    let t := ran (.arbAbort .c1) { State.reset with ch1 := { waiting with txType := .stream } }
    t.ch1.state = .doneFail ∧ t.ch1.result = .streamFail ∧ t.ch1.cause = .aborted ∧
      t.intStatus.getLsbD 4 = true ∧ (ran (.arbAbort .c1) t).err = .wrongState := by decide +kernel

/-- The word placed by `withFetchWord` is the one the next step completes. -/
theorem test_step_runs_placed_word :
    step (State.reset.withFetchWord 32 0x0C) = exec .pidInfo { State.reset.accept 0x0C with inputs := [] } := rfl

/-- A slot command at slot 0 runs from reset. -/
theorem test_step_runs_midNext :
    step (State.reset.withFetchWord 32 0x18) = exec (.midNext 0) { State.reset.accept 0x18 with inputs := [] } := rfl

/-! ### Witnesses: states and operands that meet the hypotheses of each statement -/

/-- A byte that is no wire byte exists, since the table has 64 entries (41_codec R200). -/
theorem exists_invalid_byte : ∃ b : Byte, ∀ v, Config.encTable v ≠ b := by
  by_contra h
  have hs : ∀ b : Byte, ∃ v, Config.encTable v = b := fun b => by
    by_contra hb
    exact h ⟨b, fun v hv => hb ⟨v, hv⟩⟩
  choose g hg using hs
  have hi : Function.Injective fun n : Fin 256 => (⟨(g (BitVec.ofFin n)).toNat, (g (BitVec.ofFin n)).isLt⟩ : Fin 64) := by
    intro m n hmn
    have he : g (BitVec.ofFin m) = g (BitVec.ofFin n) := BitVec.eq_of_toNat_eq (Fin.mk.inj hmn)
    have := congrArg Config.encTable he
    rw [hg, hg] at this
    exact BitVec.ofFin.inj this
  exact absurd (Fintype.card_le_of_injective _ hi) (by simp)

/-- A state with a reset done, a schedule and possibly an accepted word. -/
def scheduled (latch : Option Word) (inputs : List Input) : State :=
  { State.reset with latch := latch, inputs := inputs }

/-- Slot 0 with a last ID accepted. -/
def slotState (strict : Bool) (arg : Word) : State :=
  { State.reset with
    mid := [(0, { last := 0xFFF, valid := true, strict := strict, txid := 0 })], arg0 := arg }

theorem witness_DecodeOfEncode : (Instr.openPayload 255 511 3 .old).wellFormed = true := by decide
theorem witness_EncodeOfDecode : decode 0x0F7F7F00 = .ok .nop := by decide
theorem witness_UnusedFields :
    decode 0 = .ok .nop ∧ (0x0FFFFF00 : Word) &&& Instr.nop.usedMask = 0 &&& Instr.nop.usedMask := by decide

theorem witness_StepRuns :
    let s := scheduled (some 0) [.engine]
    s.latch = some 0 ∧ s.rst = false ∧ decode 0 = .ok .nop ∧ s.inputs = .engine :: [] := ⟨rfl, rfl, rfl, rfl⟩

theorem witness_StepRuns_no_input :
    let s := scheduled (some 0) []
    s.latch = some 0 ∧ s.rst = false ∧ decode 0 = .ok .nop ∧ s.inputs = [] := ⟨rfl, rfl, rfl, rfl⟩

theorem witness_CmdWrite_idle :
    let s := scheduled none [.write 0x00F 0x18]
    s.inputs = .write 0x00F 0x18 :: [] ∧ s.rst = false ∧ refOffset 0x00F = 0x00C ∧ s.latch = none := by decide

theorem witness_CmdWrite_busy :
    let s := scheduled (some 0) [.write 0x00C 0x18]
    s.inputs = .write 0x00C 0x18 :: [] ∧ s.rst = false ∧ refOffset 0x00C = 0x00C ∧ s.latch ≠ none := by decide

theorem witness_IllegalWord :
    let s := scheduled none [.write 0x00C 0x10000000, .engine]
    s.inputs = .write 0x00C 0x10000000 :: .engine :: [] ∧ s.rst = false ∧ refOffset 0x00C = 0x00C ∧
      s.latch = none ∧ (0x10000000 : Word).toNat / 2 ^ 28 ≠ 0 := by decide

theorem witness_IllegalWord_opcode : (0x28 : Word).toNat % 256 ∉ refOpcodes := by decide

theorem witness_FailingCommand :
    ∃ t, exec (.crcCheck 0 0 .crcInit) State.reset = .next t ∧ t.err ≠ .none := ⟨_, rfl, by decide⟩

theorem witness_BusConflict :
    let s := scheduled none [.readWrite 0 0]
    s.inputs = .readWrite 0 0 :: [] := rfl

theorem witness_RunsAreSafe : ∀ a v, Input.readWrite a v ∉ (scheduled none [.tick, .engine]).inputs := by
  simp [scheduled]

theorem witness_Encode_bounds :
    let s := withArg 127
    ¬ (6 = 0 ∨ 256 < 255 + (6 + 7) / 8 ∨ 128 < s.arg0.toNat % 256 + (6 + 5) / 6) ∧
      (7 = 0 ∨ 256 < 255 + (7 + 7) / 8 ∨ 128 < s.arg0.toNat % 256 + (7 + 5) / 6) := by decide

theorem witness_Decode_valid :
    let s := State.reset.putEnc 0 [Config.encTable 4, Config.encTable 0x23]
    ¬ (2 = 0 ∨ 128 < s.arg0.toNat % 256 + 2 ∨ 256 < 254 + (6 * 2 + 7) / 8) ∧
      ∀ j < 2, s.readByte (0xC00 + s.arg0.toNat % 256 + j) = Config.encTable (if j = 0 then 4 else 0x23) := by
  refine ⟨by decide, fun j hj => ?_⟩
  rcases (by omega : j = 0 ∨ j = 1) with rfl | rfl <;> rfl

theorem witness_Decode_invalid :
    ∃ s : State, ¬ (2 = 0 ∨ 128 < s.arg0.toNat % 256 + 2 ∨ 256 < 254 + (6 * 2 + 7) / 8) ∧
      (∀ v, Config.encTable v ≠ s.readByte (0xC00 + s.arg0.toNat % 256 + 1)) ∧
      ∀ j < 1, ∃ v, Config.encTable v = s.readByte (0xC00 + s.arg0.toNat % 256 + j) := by
  obtain ⟨b, hb⟩ := exists_invalid_byte
  refine ⟨State.reset.putEnc 0 [Config.encTable 4, b], by simp [State.putEnc, State.writeBytes, State.reset], hb, fun j hj => ⟨4, ?_⟩⟩
  rw [show j = 0 by omega]
  rfl

theorem witness_PayCodec_bounds :
    let s := withArg 84
    (32 ∈ [8, 16, 24, 32] ∧ 224 + 32 ≤ 256 ∧ s.arg0.toNat % 256 + (8 * 32 + 2 + 5) / 6 ≤ 128) ∧
      ¬ (32 ∈ [8, 16, 24, 32] ∧ 225 + 32 ≤ 256 ∧ s.arg0.toNat % 256 + (8 * 32 + 2 + 5) / 6 ≤ 128) := by decide

theorem witness_PayDecode_valid :
    let s := State.reset.putEnc 0 (List.replicate 11 (Config.encTable 0))
    (8 ∈ [8, 16, 24, 32] ∧ 248 + 8 ≤ 256 ∧ s.arg0.toNat % 256 + (8 * 8 + 2 + 5) / 6 ≤ 128) ∧
      ∀ j < (8 * 8 + 2 + 5) / 6, s.readByte (0xC00 + s.arg0.toNat % 256 + j) = Config.encTable 0 := by
  refine ⟨by decide, fun j hj => ?_⟩
  have hj : j < 11 := hj
  interval_cases j <;> rfl

theorem witness_PayDecode_invalid :
    ∃ s : State, (8 ∈ [8, 16, 24, 32] ∧ 248 + 8 ≤ 256 ∧ s.arg0.toNat % 256 + (8 * 8 + 2 + 5) / 6 ≤ 128) ∧
      ∀ v, Config.encTable v ≠ s.readByte (0xC00 + s.arg0.toNat % 256 + 0) := by
  obtain ⟨b, hb⟩ := exists_invalid_byte
  exact ⟨State.reset.putEnc 0 [b], by simp [State.putEnc, State.writeBytes, State.reset], hb⟩

theorem witness_CodecRoundTrips_payload :
    32 ∈ [8, 16, 24, 32] ∧ 224 + 32 ≤ 256 ∧ (withArg 84).arg0.toNat % 256 + (8 * 32 + 2 + 5) / 6 ≤ 128 := by decide

theorem witness_CodecRoundTrips_bits :
    504 % 8 = 0 ∧ 0 < 504 ∧ 504 ≤ 504 ∧ 193 + 504 / 8 ≤ 256 ∧
      (withArg 44).arg0.toNat % 256 + (504 + 5) / 6 ≤ 128 ∧ 193 + (6 * ((504 + 5) / 6) + 7) / 8 ≤ 256 ∧
      504 % 24 = 0 ∧ 496 % 8 = 0 ∧ 496 % 24 ≠ 0 := by decide

theorem witness_Crc :
    1 ≤ State.reset.crcOrder.toNat ∧ State.reset.crcOrder.toNat ≤ 8 ∧ 8 ≤ 16 ∧
      ((256 : Nat) ≠ 0 ∧ 0 + 256 ≤ 256 ∧ State.reset.crcOrder.toNat ≤ 8) ∧ ¬ 256 < 0 + 256 ∧ 256 < 1 + 256 := by
  decide

theorem witness_CrcContinues :
    250 + 3 + 3 ≤ 256 ∧ 1 ≤ State.reset.crcOrder.toNat ∧ State.reset.crcOrder.toNat ≤ 16 := by decide

theorem witness_CrcDetects :
    let s := withRaw 0 [0x00]
    let s' := withRaw 0 [0x80]
    0 + 1 ≤ 256 ∧ 0 < 1 ∧ 7 < 8 ∧ s.crcPoly.getLsbD 0 = true ∧ s'.crcOrder = s.crcOrder ∧
      s'.crcPoly = s.crcPoly ∧ s'.crcInit = s.crcInit ∧ s'.arg0 = s.arg0 ∧
      s'.readByte (0x800 + 0 + 0) = s.readByte (0x800 + 0 + 0) ^^^ BitVec.twoPow 8 7 := by decide

theorem witness_Xtea :
    (refBlocksOk 0 256 ∧ refMethodOk State.reset 3 .current) ∧ ¬ refBlocksOk 1 256 ∧
      ¬ refMethodOk State.reset 0 .current ∧ ¬ refMethodOk State.reset 1 .old ∧
      refMethodOk { State.reset with allowNoenc := true } 0 .old ∧
      refMethodOk { State.reset with oldValid := true } 1 .old := by
  simp [refBlocksOk, refMethodOk, State.reset]

/-- The state of the example of 44_xtea R298. -/
def exampleSealed : State :=
  { withRaw 0 [0xD2, 0x9D, 0xF3, 0xA8, 0xBC, 0xBF, 0x4A, 0xCD] with
    curKey := { exampleKey with w3 := 0xDEADBEEF }, oldKey := exampleKey, oldValid := true }

theorem witness_OpenPayload_fallback :
    refBlocksOk 0 8 ∧ exampleSealed.crcOrder.toNat ≤ 8 ∧
      ¬ refPayloadOk exampleSealed 8 (refPlainByte exampleSealed 0 1 .current) ∧
      refPayloadOk exampleSealed 8 (refPlainByte exampleSealed 0 1 .old) := by
  unfold refBlocksOk refPayloadOk
  decide +kernel

theorem witness_OpenPayload_fails :
    let s := { exampleSealed with oldValid := false }
    ¬ refPayloadOk s 8 (refPlainByte s 0 1 .current) ∧ ¬ (KeySel.current = .old ∨ s.oldValid = true) := by
  unfold refPayloadOk
  decide +kernel

theorem witness_OpenPayload_plain :
    let s := { withRaw 0 [0xDA, 0x12, 0x34, 0x41, 0x42, 0x43, 0x44, 0x45] with allowNoenc := true }
    refPayloadOk s 8 (fun i => s.readByte (0x800 + 0 + i)) ∧
      ¬ refPayloadOk exampleSealed 8 (fun i => exampleSealed.readByte (0x800 + 0 + i)) := by
  unfold refPayloadOk
  decide +kernel

theorem witness_OpenPayloadUndoesSeal :
    refBlocksOk 248 8 ∧ refMethodOk exampleSealed 3 .old ∧ 1 ≤ exampleSealed.crcOrder.toNat ∧
      exampleSealed.crcOrder.toNat ≤ 8 := by
  unfold refBlocksOk refMethodOk
  decide +kernel

theorem witness_KeysChange :
    let s := scheduled none [.write 0x05C 0xFFFFFFFF]
    ∃ t, step s = .next t ∧ t.oldKey ≠ s.oldKey := ⟨_, rfl, by decide⟩

theorem witness_slot_in_table : 0 < Config.nDev ∧ Config.nDev - 1 < Config.nDev ∧ Config.nDev ≤ 256 := by
  have := Config.nDevLessOne.isLt
  simp only [Config.nDev]
  omega

theorem witness_MidTable : MidTable.wf State.reset.mid = true ∧ MidTable.wf (slotState true 0).mid = true := by decide

theorem witness_MidValidate :
    (State.reset.midSlot 0).valid = false ∧
      ((slotState true 0xFFF).midSlot 0).valid = true ∧
      (slotState true 0xFFF).arg0.toNat % 4096 = ((slotState true 0xFFF).midSlot 0).last.toNat ∧
      (slotState true 0).arg0.toNat % 4096 = (((slotState true 0).midSlot 0).last.toNat + 1) % 4096 ∧
      (slotState true 1).arg0.toNat % 4096 ≠ ((slotState true 1).midSlot 0).last.toNat ∧
      (slotState true 1).arg0.toNat % 4096 ≠ (((slotState true 1).midSlot 0).last.toNat + 1) % 4096 ∧
      ((slotState true 1).midSlot 0).strict = true ∧ ((slotState false 1).midSlot 0).strict = false := by
  decide

theorem witness_StrictSlot :
    (slotState true 0xFFF).arg0.toNat % 4096 = (((slotState true 0xFFF).midSlot 0).last.toNat + 0) % 4096 ∧
      (slotState true 1).arg0.toNat % 4096 = (((slotState true 1).midSlot 0).last.toNat + 2) % 4096 ∧
      (slotState true 0xFFE).arg0.toNat % 4096 = (((slotState true 0xFFE).midSlot 0).last.toNat + 4095) % 4096 := by
  decide

/-- The frame of the example of 46_acknack R370. -/
def exampleFrame : State := withRaw 0x10 [0x9D, 0x12, 0x31, 0xDE, 0xAD, 0xBE, 0xEF]

theorem witness_AckParse :
    1 ≤ exampleFrame.crcOrder.toNat ∧ 0x10 + 7 ≤ 256 ∧ 3 ≤ 7 ∧ exampleFrame.crcOrder.toNat ≤ 8 ∧
      (exampleFrame.readByte (0x800 + 0x10)).toNat
        = refCrcOfBytes exampleFrame exampleFrame.crcInit (0x800 + 0x10 + 1) (7 - 1) ∧
      (exampleFrame.readByte (0x800 + 0x10)).toNat
        ≠ refCrcOfBytes exampleFrame exampleFrame.crcInit (0x800 + 0x10 + 1) (6 - 1) ∧
      3 + refHandleSize ((exampleFrame.readByte (0x800 + 0x10 + 2)).toNat % 16) = 7 := by decide +kernel

theorem witness_ArbStart :
    (¬ refInProgress Channel.atReset ∧ ({ Channel.atReset with toBase := 1 } : Channel).toBase ≠ 0 ∧
      (withArg 0).arg0.toNat / 4096 % 4 = 0 ∧ (withArg 0x1FFF).arg0.toNat / 4096 % 4 = 1 ∧
      (withArg 0x2FFF).arg0.toNat / 4096 % 4 = 2 ∧ (withArg 0x3FFF).arg0.toNat / 4096 % 4 = 3) ∧
    refInProgress waiting := by
  unfold refInProgress
  decide

theorem witness_ArbResend :
    let s := { withWaiting with ch0 := { waiting with state := .retryDue, attempt := 7, remain := 0 } }
    (s.chan .c0).attempt.toNat ≤ 8 ∧ (s.chan .c0).state = .retryDue ∧ (withWaiting.chan .c0).state ≠ .retryDue := by
  decide

theorem witness_ArbRespond :
    let c := waiting
    let p := { Parse.atReset with valid := true, msgId := 0x123 }
    let q := { p with isNack := true, handle := 11, value := 1 }
    refInProgress c ∧ p.valid = true ∧ p.msgId = c.expId ∧ p.isNack = false ∧ c.attempt.toNat < 8 ∧
      q.isNack = true ∧ ¬ 128 ≤ q.reason.toNat ∧ q.handle = 11 ∧ q.value ≠ 0 ∧
      128 ≤ ({ q with reason := 0x80 } : Parse).reason.toNat ∧
      8 ≤ ({ c with attempt := 8 } : Channel).attempt.toNat := by
  unfold refInProgress
  decide

theorem witness_Tick :
    let s := { withWaiting with inputs := [.tick], ch0 := { waiting with remain := 1 },
                                ch1 := { waiting with remain := 1, attempt := 8, txType := .block } }
    s.inputs = .tick :: [] ∧ s.rst = false ∧ s.ch0.state = .wait ∧ s.ch0.remain = 1 ∧ s.ch0.attempt.toNat < 8 ∧
      s.ch1.remain = 1 ∧ 8 ≤ s.ch1.attempt.toNat := by decide

theorem witness_Transitions :
    let s := { withWaiting with inputs := [.tick], ch0 := { waiting with remain := 1 } }
    ∃ t, step s = .next t ∧ s.inputs.head? ≠ some (.rst true) ∧ t.ch0.state ≠ s.ch0.state :=
  ⟨_, rfl, by decide, by decide⟩

theorem witness_EightTimeouts :
    let s := { withArg 0x123 with ch0 := { Channel.atReset with toBase := 0xFFFF, toStep := 0xFFFF } }
    ¬ refInProgress s.ch0 ∧ s.ch0.toBase ≠ 0 ∧ s.arg0.toNat / 4096 % 4 = 0 := by
  unfold refInProgress
  decide

theorem witness_MatchingAck :
    let s := { withRaw 0xFD [0x3A, 0x12, 0x30] with ch0 := waiting }
    s.ch0.state = .wait ∧ 1 ≤ s.crcOrder.toNat ∧ s.crcOrder.toNat ≤ 8 ∧ 3 ≤ 3 ∧ 0xFD + 3 ≤ 256 ∧
      (s.readByte (0x800 + 0xFD)).toNat = refCrcOfBytes s s.crcInit (0x800 + 0xFD + 1) (3 - 1) ∧
      16 * (s.readByte (0x800 + 0xFD + 1)).toNat + (s.readByte (0x800 + 0xFD + 2)).toNat / 16
        = s.ch0.expId.toNat ∧
      (s.readByte (0x800 + 0xFD + 2)).toNat % 16 = 0 := by decide +kernel

theorem witness_Reads :
    let s := scheduled none [.read 0xC7F]
    s.inputs = .read 0xC7F :: [] ∧ s.rst = false ∧ s.latch = none ∧ refOffset 0xC7F = 0xC7C := by decide

theorem witness_ReadsWhileBusy :
    let s := scheduled (some 0) [.read 0x03F]
    s.inputs = .read 0x03F :: [] ∧ s.rst = false ∧ s.latch ≠ none ∧ ¬ refCommandWritten (refOffset 0x03F) ∧
      refCommandWritten (refOffset 0x040) ∧ refCommandWritten (refOffset 0x09F) ∧
      ¬ refCommandWritten (refOffset 0x0A0) ∧ refCommandWritten (refOffset 0xC7C) ∧
      ¬ refCommandWritten (refOffset 0xC80) := by
  unfold refCommandWritten
  have := witness_slot_in_table.2.2
  refine ⟨rfl, rfl, by decide, ?_, .inr (.inr (.inl (by decide))), ?_, ?_, ?_, ?_⟩ <;> simp [refOffset]
  omega

/-- CMD, a reserved offset and the first offset after ENC_BUF read 0 while BUSY (10_state R37, R58, 20_memory
R105). -/
theorem test_reserved_reads_zero_while_busy :
    [0x00C, 0x014, 0xC80].map (fun a => ((scheduled (some 0x14) []).hostRead a).busRdata) = [0, 0, 0] := by
  decide +kernel

theorem witness_Writes :
    let s := scheduled none [.write 0x038 17]
    s.inputs = .write 0x038 17 :: [] ∧ s.rst = false ∧ s.latch = none ∧ MidTable.wf s.mid = true ∧
      refOffset 0x038 = 0x038 ∧ refWritable 0x038 ≠ 0 ∧ refWritable 0x05C ≠ 0 := by decide

theorem witness_IgnoredWritesWhileBusy :
    let s := scheduled (some 0) [.write 0x00C 0]
    s.inputs = .write 0x00C 0 :: [] ∧ s.rst = false ∧ s.latch ≠ none ∧ refOffset 0x00C = 0x00C ∧
      refOffset 0x018 ≠ 0x00C ∧ refWritable (refOffset 0x018) = 0 := by decide

theorem witness_Interrupts :
    let s := scheduled (some 0) [.write 0x020 0xFFFFFFFF]
    s.inputs = .write 0x020 0xFFFFFFFF :: [] ∧ s.rst = false ∧ refOffset 0x020 = 0x020 ∧
      refOffset 0x027 = 0x024 := by decide

theorem witness_OperandsStayFixed :
    let s := scheduled (some 0) [.write 0x010 1]
    ∃ t, step s = .next t ∧ s.latch ≠ none ∧ s.rst = false ∧ s.inputs = .write 0x010 1 :: [] :=
  ⟨_, rfl, by decide, rfl, rfl⟩

theorem witness_ResetStateOffsets : 0x09C % 4 = 0 ∧ refNotBuffer 0x7FC ∧ refNotBuffer 0x900 ∧ refNotBuffer 0xC80 := by
  unfold refNotBuffer
  decide

theorem witness_Reset :
    let s := scheduled (some 0) [.rst true]
    let u := { scheduled none [.write 0x00C 0] with rst := true }
    s.inputs = .rst true :: [] ∧ u.rst = true ∧ u.inputs = .write 0x00C 0 :: [] ∧
      (scheduled none [.rst false]).inputs = .rst false :: [] := ⟨rfl, rfl, rfl, rfl⟩

theorem witness_EveryStepKeepsTheInvariant :
    let s := scheduled none [.write 0x00C 0x24]
    State.Inv s ∧ ∃ t, step s = .next t :=
  ⟨⟨rfl, rfl, by decide, by decide, by decide, by decide, by decide, by decide, by decide⟩, _, rfl⟩

theorem witness_RunningTimers :
    let s := { withWaiting with inputs := [.tick] }
    State.Inv s ∧ (∃ t, step s = .next t) ∧ s.ch0.toBase ≠ 0 ∧ s.ch0.remain ≠ 0 ∧
      (∀ addr v rest, s.inputs = .write addr v :: rest → False) :=
  ⟨⟨rfl, rfl, by decide, by decide, by decide, by decide, by decide, by decide, by decide⟩, ⟨_, rfl⟩,
    by decide, by decide, by simp⟩

end Sys2Proof.Machine
end

section
/-! SUPPORT. The equations of the engine's turn and of one step, and the statement of 00_scope about them. -/

namespace Sys2Proof.Machine

/-- A word that decodes to `i` is completed by `exec i` (40_control R181). -/
theorem runCommand_of_decode_ok {w : Word} {i : Instr} (s : State) (hd : decode w = .ok i) :
    runCommand w s = exec i s := by
  rw [runCommand, hd]

/-- An illegal word is completed with ILLEGAL_CMD (30_encoding R149). -/
theorem runCommand_of_decode_error {w : Word} {e : Illegal} (s : State) (hd : decode w = .error e) :
    runCommand w s = .next (s.raise .illegalCmd) := by
  rw [runCommand, hd]

/-- Out of reset the engine's turn completes the latched word (40_control R182). -/
theorem engineTurn_of_latched {s : State} {w : Word} (hl : s.latch = some w) (hr : s.rst = false) :
    engineTurn s = runCommand w s := by
  simp only [engineTurn, hl, hr, Bool.false_eq_true, if_false]

/-- With no input left the step is the engine's turn (00_scope R14; log 6). -/
theorem step_of_inputs_nil {s : State} (hi : s.inputs = []) : step s = engineTurn s := by
  rw [step, nextStep, hi]

/-- The step applies the first input of the schedule and consumes it (00_scope R14; log 6). -/
theorem step_of_inputs_cons {s : State} {i : Input} {rest : List Input} (hi : s.inputs = i :: rest) :
    step s = applyInput i { s with inputs := rest } := by
  rw [step, nextStep, hi]

/-- Settles O6: with no input left the engine's turn is taken on `s` itself, with an `engine` input on `s`
without that input, which has the same latch and the same `rst`. -/
theorem stepRunsTheDecodedCommand : Obligations.StepRunsTheDecodedCommand := by
  intro s w i hl hr hd
  have turn_eq_exec (u : State) (hul : u.latch = some w) (hur : u.rst = false) : engineTurn u = exec i u :=
    (engineTurn_of_latched hul hur).trans (runCommand_of_decode_ok u hd)
  constructor
  · intro hi
    exact (step_of_inputs_nil hi).trans (turn_eq_exec s hl hr)
  · intro rest hi
    calc step s
      _ = engineTurn { s with inputs := rest } := step_of_inputs_cons hi
      _ = exec i { s with inputs := rest } := turn_eq_exec _ hl hr

end Sys2Proof.Machine
end

section
/-! SUPPORT. What a command keeps: between acceptance and completion a command may only write well-formed
parts of the state, and never what only the host writes. -/

namespace Sys2Proof.Machine

/-! ### The invariant without the command latch -/

/-- The rules of `State.Inv` that are not about the command latch: canonical tables, a legal CRC_ORDER, legal
channels and a legal parse latch. -/
structure State.WellFormed (s : State) : Prop where
  mem : Memory.wf s.mem = true
  mid : MidTable.wf s.mid = true
  order : 1 ≤ s.crcOrder.toNat ∧ s.crcOrder.toNat ≤ 16
  chan : ∀ n, Channel.Legal n (s.chan n)
  parse : Parse.Legal s.parse

theorem State.inv_iff (s : State) :
    s.Inv ↔ s.WellFormed ∧
      (s.latch ≠ none → s.err = .none ∧ s.latch.map (fun w => w.extractLsb' 0 8) = some s.lastOp) ∧
      (s.rst = true → s.latch = none) := by
  constructor
  · rintro ⟨hmem, hmid, hlo, hhi, h0, h1, hparse, hlatch, hrst⟩
    exact ⟨⟨hmem, hmid, ⟨hlo, hhi⟩, fun n => by cases n <;> assumption, hparse⟩, hlatch, hrst⟩
  · rintro ⟨⟨hmem, hmid, ⟨hlo, hhi⟩, hchan, hparse⟩, hlatch, hrst⟩
    exact ⟨hmem, hmid, hlo, hhi, hchan .c0, hchan .c1, hparse, hlatch, hrst⟩

/-- With the latch empty the rules about the latch say nothing. -/
theorem State.WellFormed.inv_of_latch_none {s : State} (h : s.WellFormed) (hl : s.latch = none) : s.Inv :=
  (State.inv_iff s).mpr ⟨h, fun hne => absurd hl hne, fun _ => hl⟩

theorem State.reset_wellFormed : State.reset.WellFormed where
  mem := rfl
  mid := rfl
  order := by decide
  chan := fun n => by cases n <;> decide
  parse := by decide

/-! ### The moves of a channel keep it legal (46_acknack R374) -/

section
variable {n : Chan} {c : Channel}

theorem Channel.Legal.attempt_le (h : Channel.Legal n c) : c.attempt.toNat ≤ 8 := h.left

theorem Channel.Legal.one_le_attempt (h : Channel.Legal n c) (hp : c.state.inProgress = true) :
    1 ≤ c.attempt.toNat := by
  obtain ⟨-, hrun, -⟩ := h
  exact (hrun hp).left

theorem Channel.Legal.attempt_lt (h : Channel.Legal n c) (hs : c.state = .retryDue ∨ c.state = .pause) :
    c.attempt.toNat < 8 := by
  obtain ⟨-, -, hretry, -⟩ := h
  exact hretry hs

/-- A legal channel in progress serves a type that fits its number. -/
theorem Channel.Legal.fits (h : Channel.Legal n c) (hp : c.state.inProgress = true) :
    (n = .c0 → c.txType = .single) ∧ (n = .c1 → c.txType ≠ .single) := by
  obtain ⟨-, -, -, -, -, -, -, -, hsingle, hother⟩ := h
  exact ⟨hsingle, fun hn => hother ⟨hn, fun hs => by simp [hs, ChanState.inProgress] at hp⟩⟩

/-- Of ARBn_CFG, HANDLE, REASON and EXP_ID a legal channel may hold any values. -/
theorem Channel.Legal.set_unchecked (h : Channel.Legal n c) (base step : BitVec 16) (id : MsgId)
    (handle : BitVec 4) (reason : Byte) :
    Channel.Legal n
      { c with toBase := base, toStep := step, expId := id, handle := handle, reason := reason } := h

/-- Entry to DONE_OK. -/
theorem Channel.Legal.succeed (h : Channel.Legal n c) (hp : c.state.inProgress = true) :
    Channel.Legal n c.succeed := by
  obtain ⟨hsingle, hother⟩ := h.fits hp
  simpa [Channel.Legal, Channel.succeed, ChanState.inProgress, h.attempt_le] using ⟨hsingle, hother⟩

/-- Entry to DONE_FAIL. -/
theorem Channel.Legal.fail (h : Channel.Legal n c) (hp : c.state.inProgress = true) {cause : TxCause}
    (hc : cause ≠ .none ∧ cause ≠ .ack) : Channel.Legal n (c.fail cause) := by
  obtain ⟨hsingle, hother⟩ := h.fits hp
  simpa [Channel.Legal, Channel.fail, ChanState.inProgress, h.attempt_le, hc] using ⟨hsingle, hother⟩

/-- Between the states of a transaction in progress the attempt count and the timer move alone. -/
theorem Channel.Legal.move (h : Channel.Legal n c) (hp : c.state.inProgress = true) {st : ChanState}
    {attempt : BitVec 4} {remain : Word} (hst : st.inProgress = true)
    (hattempt : 1 ≤ attempt.toNat ∧ attempt.toNat ≤ 8)
    (hretry : st = .retryDue ∨ st = .pause → attempt.toNat < 8)
    (hremain : (st = .pause → remain ≠ 0) ∧ (st = .retryDue → remain = 0)) :
    Channel.Legal n { c with state := st, attempt := attempt, remain := remain } := by
  obtain ⟨hsingle, hother⟩ := h.fits hp
  obtain ⟨-, hrun, -⟩ := h
  obtain ⟨-, hresult, hcause⟩ := hrun hp
  cases st <;> simp_all [Channel.Legal, ChanState.inProgress]

/-- One TICK (46_acknack R382). -/
theorem Channel.Legal.tick (h : Channel.Legal n c) : Channel.Legal n c.tick.1 := by
  rcases c.tick_cases with ⟨-, -, ht⟩ | ⟨hs, hz, ht⟩ | ⟨hs, -, ht⟩ | ⟨hs, -, -, ht⟩
  · rw [ht]
    exact h
  · have hp : c.state.inProgress = true := by rcases hs with hs | hs <;> rw [hs] <;> rfl
    rw [ht]
    refine h.move hp hp ⟨h.one_le_attempt hp, h.attempt_le⟩ h.attempt_lt ⟨fun _ => hz, fun hr => ?_⟩
    rw [hr] at hs
    simp at hs
  · have hp : c.state.inProgress = true := by rcases hs with hs | ⟨hs, -⟩ <;> rw [hs] <;> rfl
    have hlt : c.attempt.toNat < 8 := hs.elim (fun hs => h.attempt_lt (.inr hs)) And.right
    rw [ht]
    exact h.move hp rfl ⟨h.one_le_attempt hp, hlt.le⟩ (fun _ => hlt) ⟨by simp, fun _ => rfl⟩
  · rw [ht]
    exact h.fail (cause := .timeOut) (by rw [hs]; rfl) (by decide)

/-- One response (46_acknack R377). -/
theorem Channel.Legal.respond (h : Channel.Legal n c) (hp : c.state.inProgress = true) (p : Parse) :
    Channel.Legal n (c.respond p).1 := by
  have hc := h.set_unchecked (adjustedBase c.toBase p.handle p.value) c.toStep c.expId p.handle p.reason
  have hle := h.one_le_attempt hp
  rcases c.respond_cases p _ rfl with
    ⟨-, hr⟩ | ⟨-, -, hr⟩ | ⟨-, -, hlt, -, hv, hr⟩ | ⟨-, -, hlt, -, hr⟩ | ⟨-, -, -, hr⟩ <;> rw [hr]
  · exact hc.succeed hp
  · exact hc.fail hp (by decide)
  · exact hc.move hp rfl ⟨hle, hlt.le⟩ (fun _ => hlt) ⟨fun _ => hv, by simp⟩
  · exact hc.move hp rfl ⟨hle, hlt.le⟩ (fun _ => hlt) ⟨by simp, fun _ => rfl⟩
  · exact hc.fail hp (by decide)

/-- ARB_RESEND (46_acknack R376). -/
theorem Channel.Legal.resend (h : Channel.Legal n c) (hs : c.state = .retryDue) (remain : Word) :
    Channel.Legal n { c with attempt := c.attempt + 1, remain := remain, state := .wait } := by
  have hp : c.state.inProgress = true := by rw [hs]; rfl
  have hlt : c.attempt.toNat < 8 := h.attempt_lt (.inl hs)
  have hnext : (c.attempt + 1).toNat = c.attempt.toNat + 1 := by bv_omega
  exact h.move hp rfl (by omega) (by simp) (by simp)

/-- ARB_START (46_acknack R375): the new transaction depends on nothing of the old one. -/
theorem Channel.legal_start {t : BitVec 2} {ty : TxType} (ht : servedType n t = some ty) (c : Channel)
    (id : MsgId) (remain : Word) :
    Channel.Legal n
      { c with
        expId := id, txType := ty, attempt := 1, result := .none, cause := .none, handle := 0,
        reason := 0, remain := remain, state := .wait } := by
  have hfits : (n = .c0 → ty = .single) ∧ (n = .c1 → ty ≠ .single) := by
    unfold servedType at ht
    split at ht <;> simp_all <;> simp [← ht]
  simpa [Channel.Legal, ChanState.inProgress] using hfits

end

/-- The latch ACK_PARSE writes is legal when the frame's handle is (46_acknack R370, R371). -/
theorem State.parseFrame_legal (s : State) (a : Nat) (k : FrameKind) (h : ¬ 12 ≤ (s.parseFrame a k).handle) :
    Parse.Legal (s.parseFrame a k) := by
  refine ⟨by bv_omega, fun hk => ?_, fun hz => ?_⟩
  · exact if_neg (by simpa [State.parseFrame] using hk)
  · have hz' : handleSize ((s.readByte (rawBase + a + 2)).extractLsb' 0 4) = 0 := hz
    simp [State.parseFrame, hz']

end Sys2Proof.Machine
end

section
/-! SUPPORT. Every command completes a state in which it wrote well-formed parts only (40_control R183, R184):
one rule per operation a command is built from, one lemma per command that does more than set results. -/

namespace Sys2Proof.Machine

/-- `u` is a state a command may reach from `s` before it completes: what only the host writes is unchanged,
and what is well formed stays so. -/
structure Keeps (s u : State) : Prop where
  host : SameHost s u
  wellFormed : s.WellFormed → u.WellFormed

/-! ### One rule per operation -/

section
variable {s u : State}

theorem Keeps.refl (s : State) : Keeps s s := ⟨SameHost.refl s, id⟩

theorem Keeps.setResult0 (h : Keeps s u) (v : Word) : Keeps s (u.setResult0 v) :=
  ⟨{ h.host with }, fun hs => { h.wellFormed hs with }⟩

theorem Keeps.setResult1 (h : Keeps s u) (v : Word) : Keeps s (u.setResult1 v) :=
  ⟨{ h.host with }, fun hs => { h.wellFormed hs with }⟩

theorem Keeps.setKeys (h : Keeps s u) (cur old : Key) (valid : Bool) :
    Keeps s { u with curKey := cur, oldKey := old, oldValid := valid } :=
  ⟨{ h.host with }, fun hs => { h.wellFormed hs with }⟩

theorem Keeps.putRaw (h : Keeps s u) {a : Nat} {vs : List Byte} (hfits : rawFits a vs.length) :
    Keeps s (u.putRaw a vs) :=
  ⟨{ h.host with }, fun hs => { h.wellFormed hs with mem := Memory.wf_putRaw (h.wellFormed hs).mem hfits }⟩

theorem Keeps.putEnc (h : Keeps s u) {a : Nat} {vs : List Byte} (hfits : encFits a vs.length) :
    Keeps s (u.putEnc a vs) :=
  ⟨{ h.host with }, fun hs => { h.wellFormed hs with mem := Memory.wf_putEnc (h.wellFormed hs).mem hfits }⟩

theorem Keeps.setMid (h : Keeps s u) {k : Nat} (hk : k < Config.nDev) (d : MidSlot) : Keeps s (u.setMid k d) :=
  ⟨{ h.host with }, fun hs => { h.wellFormed hs with mid := MidTable.wf_setMid d hk (h.wellFormed hs).mid }⟩

theorem Keeps.setParse (h : Keeps s u) {p : Parse} (hp : s.WellFormed → Parse.Legal p) :
    Keeps s { u with parse := p } :=
  ⟨{ h.host with }, fun hs => { h.wellFormed hs with parse := hp hs }⟩

theorem State.WellFormed.setChan (h : u.WellFormed) {n : Chan} {c : Channel} (hc : Channel.Legal n c) :
    (u.setChan n c).WellFormed where
  mem := by simpa using h.mem
  mid := by simpa using h.mid
  order := by simpa using h.order
  parse := by simpa using h.parse
  chan := fun m => by
    by_cases hm : m = n
    · subst hm
      simpa using hc
    · rw [State.setChan_chan_ne u c hm]
      exact h.chan m

theorem Keeps.setChan (h : Keeps s u) {n : Chan} {c : Channel} (hc : s.WellFormed → Channel.Legal n c) :
    Keeps s (u.setChan n c) where
  host := by cases n <;> exact { h.host with }
  wellFormed := fun hs => (h.wellFormed hs).setChan (hc hs)

theorem Keeps.eventIf (h : Keeps s u) (n : Chan) (raised : Bool) : Keeps s (u.eventIf n raised) := by
  cases raised
  · exact h
  · exact ⟨{ h.host with }, fun hs => { h.wellFormed hs with }⟩

theorem State.WellFormed.complete (h : u.WellFormed) (e : ErrCode) : (u.complete e).WellFormed := { h with }

end

/-! ### Every command -/

/-- The outcome is the completion, with some code, of a state the command may reach. -/
def CompletesKeeping (s : State) (o : Host.Outcome State Fault Refusal) : Prop :=
  ∃ (e : ErrCode) (u : State), o = .next (u.complete e) ∧ Keeps s u

section
variable {s : State}

theorem Keeps.completes {u : State} (h : Keeps s u) (e : ErrCode) : CompletesKeeping s (.next (u.complete e)) :=
  ⟨e, u, rfl, h⟩

/-- A command that only raises an error (40_control R184). -/
theorem completesKeeping_raise (s : State) (e : ErrCode) : CompletesKeeping s (.next (s.raise e)) :=
  (Keeps.refl s).completes e

/-- A command whose check fails raises an error; otherwise its body completes. -/
theorem completesKeeping_ite {p : Prop} [Decidable p] {t u : State}
    (ht : p → CompletesKeeping s (.next t)) (hu : ¬ p → CompletesKeeping s (.next u)) :
    CompletesKeeping s (.next (if p then t else u)) := by
  split
  · next hp => exact ht hp
  · next hp => exact hu hp

/-- A command whose check fails raises an error; otherwise its body completes. -/
theorem completesKeeping_guard {p : Prop} [Decidable p] {e : ErrCode} {t : State}
    (ht : ¬ p → CompletesKeeping s (.next t)) : CompletesKeeping s (.next (if p then s.raise e else t)) :=
  completesKeeping_ite (fun _ => completesKeeping_raise s e) ht

theorem execEncode_keeps (a n : Nat) (s : State) : CompletesKeeping s (execEncode a n s) := by
  refine completesKeeping_guard fun hok => ?_
  push Not at hok
  obtain ⟨-, -, hfits⟩ := hok
  exact ((((Keeps.refl s).putEnc (by simpa using hfits)).setResult0 _).setResult1 _).completes _

theorem execPayEncode_keeps (a len : Nat) (m : BitVec 2) (s : State) :
    CompletesKeeping s (execPayEncode a len m s) := by
  refine completesKeeping_guard fun _ => completesKeeping_guard fun hok => ?_
  push Not at hok
  exact ((((Keeps.refl s).putEnc (by simpa using hok.2)).setResult0 _).setResult1 _).completes _

theorem execDecode_keeps (a k : Nat) (s : State) : CompletesKeeping s (execDecode a k s) := by
  refine completesKeeping_guard fun hok => ?_
  push Not at hok
  obtain ⟨-, -, hfits⟩ := hok
  split
  · exact ((Keeps.refl s).setResult1 _).completes _
  · exact ((((Keeps.refl s).putRaw (by simpa using hfits)).setResult0 _).setResult1 _).completes _

theorem execPayDecode_keeps (a len : Nat) (s : State) : CompletesKeeping s (execPayDecode a len s) := by
  refine completesKeeping_guard fun _ => completesKeeping_guard fun hok => ?_
  push Not at hok
  split
  · exact ((Keeps.refl s).setResult1 _).completes _
  · exact ((((Keeps.refl s).putRaw (by simpa using hok.1)).setResult0 _).setResult1 _).completes _

theorem execCrcCompute_keeps (a b : Nat) (k : StartSel) (s : State) :
    CompletesKeeping s (execCrcCompute a b k s) :=
  completesKeeping_guard fun _ => ((Keeps.refl s).setResult0 _).completes _

theorem execCrcCheck_keeps (a b : Nat) (k : StartSel) (s : State) : CompletesKeeping s (execCrcCheck a b k s) :=
  completesKeeping_guard fun _ =>
    have hboth (c stored : Word) : Keeps s ((s.setResult0 c).setResult1 stored) :=
      ((Keeps.refl s).setResult0 c).setResult1 stored
    completesKeeping_ite (fun _ => (hboth _ _).completes _) (fun _ => (hboth _ _).completes _)

theorem execCrcFill_keeps (a b : Nat) (k : StartSel) (s : State) : CompletesKeeping s (execCrcFill a b k s) := by
  refine completesKeeping_guard fun hok => ?_
  push Not at hok
  obtain ⟨hb, hfits, -⟩ := hok
  have hbyte : rawFits a 1 := by
    unfold rawFits at hfits ⊢
    omega
  exact (((Keeps.refl s).putRaw hbyte).setResult0 _).completes _

@[simp] theorem mapBlocks_length (f : Word → Word → Word × Word) (n : Nat) (bs : List Byte) :
    (mapBlocks f n bs).length = 8 * n := by
  induction n generalizing bs with
  | zero => rfl
  | succ n ih =>
    simp only [mapBlocks, List.length_append, bytesOf_length, ih]
    omega

/-- The blocks of a legal range fill exactly that range. -/
theorem rawFits_of_blockRangeOk {a b : Nat} (h : blockRangeOk a b) : rawFits a (8 * (b / 8)) := by
  obtain ⟨-, hmod, hfits⟩ := h
  rwa [Nat.mul_div_cancel' (Nat.dvd_of_mod_eq_zero hmod)]

theorem execXteaEnc_keeps (a b : Nat) (m : BitVec 2) (k : KeySel) (s : State) :
    CompletesKeeping s (execXteaEnc a b m k s) := by
  refine completesKeeping_guard fun hok => completesKeeping_guard fun _ => completesKeeping_guard fun _ =>
    completesKeeping_ite (fun _ => (Keeps.refl s).completes _) fun _ => ?_
  have hfits := rawFits_of_blockRangeOk (not_not.mp hok)
  exact ((Keeps.refl s).putRaw (by simpa using hfits)).completes _

theorem execXteaDec_keeps (a b : Nat) (m : BitVec 2) (k : KeySel) (s : State) :
    CompletesKeeping s (execXteaDec a b m k s) := by
  refine completesKeeping_guard fun hok => completesKeeping_guard fun _ => completesKeeping_guard fun _ =>
    completesKeeping_ite (fun _ => (Keeps.refl s).completes _) fun _ => ?_
  have hfits := rawFits_of_blockRangeOk (not_not.mp hok)
  exact ((Keeps.refl s).putRaw (by simpa using hfits)).completes _

/-- A plaintext that opens is made of the ciphertext's whole blocks. -/
theorem State.openUnder_length {s : State} {m : BitVec 2} {c p : List Byte} {t t' : Nat} {ks : List KeySel}
    {key : KeySel} (h : s.openUnder m c t ks = some (t', key, p)) : p.length = 8 * (c.length / 8) := by
  induction ks generalizing t with
  | nil => simp [State.openUnder] at h
  | cons k ks ih =>
    simp only [State.openUnder] at h
    split at h
    · simp only [Option.some.injEq, Prod.mk.injEq] at h
      obtain ⟨-, -, rfl⟩ := h
      exact mapBlocks_length _ _ _
    · exact ih h

theorem execOpenPayload_keeps (a b : Nat) (m : BitVec 2) (k : KeySel) (s : State) :
    CompletesKeeping s (execOpenPayload a b m k s) := by
  refine completesKeeping_guard fun hok => completesKeeping_guard fun _ => completesKeeping_guard fun _ =>
    completesKeeping_ite
      (fun _ => completesKeeping_ite (fun _ => ((Keeps.refl s).setResult0 _).completes _)
        fun _ => completesKeeping_raise s _) fun _ => ?_
  have hfits := rawFits_of_blockRangeOk (not_not.mp (not_or.mp hok).1)
  split
  · next hopen =>
    have hlen := State.openUnder_length hopen
    rw [State.rawRange_length] at hlen
    exact (((Keeps.refl s).putRaw (hlen ▸ hfits)).setResult0 _).completes _
  · exact completesKeeping_raise s _

theorem execMidNext_keeps (a : Nat) (s : State) : CompletesKeeping s (execMidNext a s) :=
  completesKeeping_guard fun ha => (((Keeps.refl s).setResult0 _).setMid (not_le.mp ha) _).completes _

theorem execMidValidate_keeps (a : Nat) (s : State) : CompletesKeeping s (execMidValidate a s) := by
  refine completesKeeping_guard fun ha => ?_
  have store (d : MidSlot) (r : Word) (e : ErrCode) :
      CompletesKeeping s (.next (((s.setMid a d).setResult0 r).complete e)) :=
    (((Keeps.refl s).setMid (not_le.mp ha) d).setResult0 r).completes e
  have report (r : Word) (e : ErrCode) : CompletesKeeping s (.next ((s.setResult0 r).complete e)) :=
    ((Keeps.refl s).setResult0 r).completes e
  exact completesKeeping_ite (fun _ => store ..) fun _ =>
    completesKeeping_ite (fun _ => report ..) fun _ =>
    completesKeeping_ite (fun _ => store ..) fun _ =>
    completesKeeping_ite (fun _ => report ..) fun _ => store ..

theorem execAckParse_keeps (a b : Nat) (k : FrameKind) (s : State) :
    CompletesKeeping s (execAckParse a b k s) := by
  refine completesKeeping_guard fun _ => completesKeeping_guard fun _ => completesKeeping_guard fun hok => ?_
  have hlegal := s.parseFrame_legal a k (not_or.mp hok).1
  exact ((((Keeps.refl s).setParse fun _ => hlegal).setResult0 _).setResult1 _).completes _

theorem execArbStart_keeps (n : Chan) (s : State) : CompletesKeeping s (execArbStart n s) := by
  refine completesKeeping_guard fun _ => ?_
  split
  · exact completesKeeping_raise s _
  · next hserved =>
    exact completesKeeping_guard fun _ =>
      ((Keeps.refl s).setChan fun _ => Channel.legal_start hserved (s.chan n) _ _).completes _

theorem execArbResend_keeps (n : Chan) (s : State) : CompletesKeeping s (execArbResend n s) :=
  completesKeeping_guard fun hst =>
    ((Keeps.refl s).setChan fun hs => (hs.chan n).resend (not_not.mp hst) _).completes _

theorem execArbRespond_keeps (n : Chan) (s : State) : CompletesKeeping s (execArbRespond n s) :=
  completesKeeping_guard fun hp => completesKeeping_guard fun _ => completesKeeping_guard fun _ =>
    ((((Keeps.refl s).setParse (p := { s.parse with valid := false }) fun hs => hs.parse).setChan fun hs =>
      (hs.chan n).respond (Bool.not_eq_false _ ▸ hp) s.parse).eventIf n _).completes _

theorem execArbAbort_keeps (n : Chan) (s : State) : CompletesKeeping s (execArbAbort n s) :=
  completesKeeping_guard fun hp =>
    (((Keeps.refl s).setChan fun hs =>
      (hs.chan n).fail (Bool.not_eq_false _ ▸ hp) (by decide)).eventIf n true).completes _

/-- Every command, in every state, completes with some code and writes well-formed parts only. -/
theorem exec_keeps (i : Instr) (s : State) : CompletesKeeping s (exec i s) := by
  have hs := Keeps.refl s
  cases i with
  | nop => exact hs.completes _
  | encode a b => exact execEncode_keeps a b s
  | decode a b => exact execDecode_keeps a b s
  | payEncode a b m => exact execPayEncode_keeps a b m s
  | payDecode a b => exact execPayDecode_keeps a b s
  | crcCompute a b k => exact execCrcCompute_keeps a b k s
  | crcCheck a b k => exact execCrcCheck_keeps a b k s
  | crcFill a b k => exact execCrcFill_keeps a b k s
  | pidInfo => exact ((hs.setResult0 _).setResult1 _).completes _
  | xteaEnc a b m k => exact execXteaEnc_keeps a b m k s
  | xteaDec a b m k => exact execXteaDec_keeps a b m k s
  | openPayload a b m k => exact execOpenPayload_keeps a b m k s
  | keyRotate => exact (hs.setKeys _ _ _).completes _
  | keyCommit => exact (hs.setKeys s.curKey s.oldKey false).completes _
  | midNext a => exact execMidNext_keeps a s
  | midValidate a => exact execMidValidate_keeps a s
  | ackParse a b k => exact execAckParse_keeps a b k s
  | nackFatal => exact ((hs.setResult0 _).setResult1 _).completes _
  | arbStart n => exact execArbStart_keeps n s
  | arbResend n => exact execArbResend_keeps n s
  | arbRespond n => exact execArbRespond_keeps n s
  | arbAbort n => exact execArbAbort_keeps n s

/-- Every accepted word, legal or not, completes so (40_control R181). -/
theorem runCommand_keeps (w : Word) (s : State) : CompletesKeeping s (runCommand w s) := by
  cases hd : decode w with
  | ok i => exact runCommand_of_decode_ok s hd ▸ exec_keeps i s
  | error e => exact runCommand_of_decode_error s hd ▸ completesKeeping_raise s .illegalCmd

end

end Sys2Proof.Machine
end

section
/-! SUPPORT. The register map as a relation between word offsets and targets, and what each target reads as in
the numbers of the register map (10_state R33 to R58). -/

namespace Sys2Proof.Machine

/-- The word offsets of the registers below the table of slots (10_state R33). -/
def registerOffsets : List Nat :=
  [0x000, 0x004, 0x008, 0x00C, 0x010, 0x018, 0x01C, 0x020, 0x024, 0x030, 0x034, 0x038, 0x03C, 0x040, 0x044, 0x048,
    0x04C, 0x050, 0x054, 0x058, 0x05C, 0x060, 0x068, 0x06C, 0x080, 0x084, 0x088, 0x08C, 0x090, 0x094, 0x098, 0x09C]

/-- The register map (10_state R33): which target a word offset holds. `target` computes it
(`windowMap_target`). -/
inductive WindowMap : Nat → Target → Prop
  | id : WindowMap 0x000 .id
  | ctrl : WindowMap 0x004 .ctrl
  | status : WindowMap 0x008 .status
  | cmd : WindowMap 0x00C .cmd
  | arg0 : WindowMap 0x010 .arg0
  | result0 : WindowMap 0x018 .result0
  | result1 : WindowMap 0x01C .result1
  | intStatus : WindowMap 0x020 .intStatus
  | intEnable : WindowMap 0x024 .intEnable
  | crcPoly : WindowMap 0x030 .crcPoly
  | crcInit : WindowMap 0x034 .crcInit
  | crcOrder : WindowMap 0x038 .crcOrder
  | xteaCfg : WindowMap 0x03C .xteaCfg
  | curKey0 : WindowMap 0x040 .curKey0
  | curKey1 : WindowMap 0x044 .curKey1
  | curKey2 : WindowMap 0x048 .curKey2
  | curKey3 : WindowMap 0x04C .curKey3
  | oldKey0 : WindowMap 0x050 .oldKey0
  | oldKey1 : WindowMap 0x054 .oldKey1
  | oldKey2 : WindowMap 0x058 .oldKey2
  | oldKey3 : WindowMap 0x05C .oldKey3
  | keyStatus : WindowMap 0x060 .keyStatus
  | parse0 : WindowMap 0x068 .parse0
  | parse1 : WindowMap 0x06C .parse1
  | arbCfg0 : WindowMap 0x080 (.arbCfg .c0)
  | arbState0 : WindowMap 0x084 (.arbState .c0)
  | arbTimer0 : WindowMap 0x088 (.arbTimer .c0)
  | arbResult0 : WindowMap 0x08C (.arbResult .c0)
  | arbCfg1 : WindowMap 0x090 (.arbCfg .c1)
  | arbState1 : WindowMap 0x094 (.arbState .c1)
  | arbTimer1 : WindowMap 0x098 (.arbTimer .c1)
  | arbResult1 : WindowMap 0x09C (.arbResult .c1)
  | mid {k : Nat} (hk : k < Config.nDev) : WindowMap (0x400 + 4 * k) (.mid k)
  | buffer {off : Nat} (haligned : off % 4 = 0)
      (hoff : (0x800 ≤ off ∧ off < 0x900) ∨ (0xC00 ≤ off ∧ off < 0xC80)) : WindowMap off (.buffer off)
  | reserved {off : Nat} (haligned : off % 4 = 0) (hreg : off ∉ registerOffsets)
      (hmid : ¬ (0x400 ≤ off ∧ off < 0x400 + 4 * Config.nDev)) (hbuf : refNotBuffer off) :
      WindowMap off .reserved

theorem nDev_le : Config.nDev ≤ 256 := by
  have := Config.nDevLessOne.isLt
  unfold Config.nDev
  omega

/-- Ignoring bits [1:0] of an address rounds it down to a multiple of 4 (20_memory R104). -/
theorem toNat_and_mask_eq_refOffset (addr : BusAddr) : (addr &&& 0xFFC#12).toNat = refOffset addr := by
  have hshift : addr &&& 0xFFC#12 = (addr >>> 2) <<< 2 := by
    apply BitVec.eq_of_getLsbD_eq
    intro i hi
    interval_cases i <;> simp
  have := addr.isLt
  rw [hshift, refOffset]
  simp only [BitVec.toNat_shiftLeft, BitVec.toNat_ushiftRight, Nat.shiftLeft_eq, Nat.shiftRight_eq_div_pow]
  omega

theorem refOffset_aligned (addr : BusAddr) : refOffset addr % 4 = 0 := by
  unfold refOffset
  omega

theorem isBufferAddr_iff (x : Nat) :
    isBufferAddr x = true ↔ (0x800 ≤ x ∧ x < 0x900) ∨ (0xC00 ≤ x ∧ x < 0xC80) := by
  simp [isBufferAddr, rawBase, encBase, Config.rawBytes, Config.encBytes]

/-- Above the registers: slots, buffers and reserved offsets (20_memory R102, R105). -/
theorem windowMap_tableTarget {off : Nat} (haligned : off % 4 = 0) (hreg : off ∉ registerOffsets) :
    WindowMap off (tableTarget off) := by
  have hdev := nDev_le
  unfold tableTarget
  split
  · next hmid =>
    split
    · next hk =>
      have hoff : 0x400 + 4 * ((off - 0x400) / 4) = off := by omega
      simpa [hoff] using WindowMap.mid hk
    · exact .reserved haligned hreg (by omega) ⟨by omega, by omega⟩
  · next hmid =>
    split
    · next hbuf => exact .buffer haligned ((isBufferAddr_iff off).mp hbuf)
    · next hbuf =>
      rw [isBufferAddr_iff, not_or] at hbuf
      exact .reserved haligned hreg (by omega) hbuf

/-- The decoder of bus addresses follows the register map (10_state R33, 20_memory R104). -/
theorem windowMap_target (addr : BusAddr) : WindowMap (refOffset addr) (target addr) := by
  have haligned := refOffset_aligned addr
  unfold target
  rw [toNat_and_mask_eq_refOffset]
  generalize refOffset addr = off at haligned
  split
  case h_33 => exact windowMap_tableTarget haligned (by simp_all [registerOffsets])
  all_goals constructor

end Sys2Proof.Machine
end

section
/-! SUPPORT. What every step keeps: the statements about the invariant and about safe runs. -/

namespace Sys2Proof.Machine

/-! ### A command in the engine's turn -/

/-- The next state of a completion that keeps the well-formed parts, taken apart. -/
theorem CompletesKeeping.next {s t : State} {o : Host.Outcome State Fault Refusal} (h : CompletesKeeping s o)
    (ho : o = .next t) : ∃ e u, t = u.complete e ∧ Keeps s u := by
  obtain ⟨e, u, rfl, hu⟩ := h
  exact ⟨e, u, (Host.Outcome.next.inj ho).symm, hu⟩

/-- Everything the engine's turn does to the invariant: it does nothing, or it completes a state the command
may reach. -/
theorem engineTurn_keeps {s t : State} (h : engineTurn s = .next t) :
    t = s ∨ ∃ e u, t = u.complete e ∧ Keeps s u := by
  rcases engineTurn_cases h with ⟨rfl, -⟩ | ⟨w, i, -, -, -, hexec⟩ | ⟨w, e, -, -, -, rfl⟩
  · exact .inl rfl
  · exact .inr ((exec_keeps i s).next hexec)
  · exact .inr ⟨.illegalCmd, s, rfl, Keeps.refl s⟩

theorem engineTurn_inv {s t : State} (hs : s.Inv) (h : engineTurn s = .next t) : t.Inv := by
  rcases engineTurn_keeps h with rfl | ⟨e, u, rfl, hu⟩
  · exact hs
  · have hwf := hu.wellFormed ((State.inv_iff s).mp hs).1
    exact (hwf.complete e).inv_of_latch_none rfl

/-! ### Host writes -/

/-- A write never stores an illegal CRC_ORDER (10_state R45). -/
theorem legalOrder_range {order : BitVec 5} (v : BitVec 5) (h : 1 ≤ order.toNat ∧ order.toNat ≤ 16) :
    1 ≤ (legalOrder order v).toNat ∧ (legalOrder order v).toNat ≤ 16 := by
  unfold legalOrder
  split
  · bv_omega
  · exact h

/-- A write of a target of the register map stores well-formed parts. -/
theorem State.WellFormed.writeTarget {s : State} (h : s.WellFormed) {off : Nat} {tgt : Target}
    (hmap : WindowMap off tgt) (v : Word) : (s.writeTarget tgt v).WellFormed := by
  cases hmap with
  | mid hk => exact { h with mid := MidTable.wf_setMid _ hk h.mid }
  | buffer haligned hoff =>
    refine { h with mem := Memory.wf_writeBytes h.mem fun i hi => ?_ }
    rw [bytesOf_length] at hi
    exact (isBufferAddr_iff _).mpr (by omega)
  | arbCfg0 => exact h.setChan ((h.chan .c0).set_unchecked _ _ _ _ _)
  | arbCfg1 => exact h.setChan ((h.chan .c1).set_unchecked _ _ _ _ _)
  | crcOrder => exact { h with order := legalOrder_range _ h.order }
  | _ => exact { h with }

/-- A host write of a target leaves the latch, STATUS, the reset level and the schedule alone. -/
theorem State.writeTarget_status (s : State) (tgt : Target) (v : Word) :
    (s.writeTarget tgt v).latch = s.latch ∧ (s.writeTarget tgt v).err = s.err ∧
      (s.writeTarget tgt v).lastOp = s.lastOp ∧ (s.writeTarget tgt v).rst = s.rst ∧
      (s.writeTarget tgt v).inputs = s.inputs := by
  cases tgt <;> simp [State.writeTarget]

/-- Acceptance of a word out of reset (40_control R180). -/
theorem State.accept_inv {s : State} (hs : s.Inv) (hr : s.rst = false) (w : Word) : (s.accept w).Inv := by
  obtain ⟨hwf, -, -⟩ := (State.inv_iff s).mp hs
  exact (State.inv_iff _).mpr ⟨{ hwf with }, fun _ => ⟨rfl, rfl⟩, fun h => by simp [hr] at h⟩

theorem State.writeTarget_inv {s : State} (hs : s.Inv) (addr : BusAddr) (v : Word) :
    (s.writeTarget (target addr) v).Inv := by
  obtain ⟨hwf, hlatch, hrst⟩ := (State.inv_iff s).mp hs
  obtain ⟨hl, he, ho, hr, -⟩ := s.writeTarget_status (target addr) v
  refine (State.inv_iff _).mpr ⟨hwf.writeTarget (windowMap_target addr) v, ?_, ?_⟩
  · rwa [hl, he, ho]
  · rwa [hl, hr]

/-- A host write out of reset. -/
theorem State.hostWrite_inv {s : State} (hs : s.Inv) (hr : s.rst = false) (addr : BusAddr) (v : Word) :
    (s.hostWrite addr v).Inv := by
  rcases s.hostWrite_cases addr v with ⟨-, h⟩ | ⟨-, h⟩ | ⟨-, h⟩ | ⟨-, h⟩ | ⟨-, h⟩ <;> rw [h]
  · split
    · exact hs
    · exact State.accept_inv hs hr v
  · exact hs
  · exact hs
  · exact hs
  · split
    · exact hs
    · exact State.writeTarget_inv hs addr v

/-! ### Ticks and resets -/

theorem State.tick_inv {s : State} (hs : s.Inv) : s.tick.Inv := by
  obtain ⟨hwf, hlatch, hrst⟩ := (State.inv_iff s).mp hs
  rw [State.tick_eq]
  refine (State.inv_iff _).mpr ⟨{ hwf with chan := fun n => ?_ }, hlatch, hrst⟩
  cases n
  · exact (hwf.chan .c0).tick
  · exact (hwf.chan .c1).tick

theorem State.takeReset_inv (s : State) : s.takeReset.Inv :=
  State.WellFormed.inv_of_latch_none { State.reset_wellFormed with chan := State.reset_wellFormed.chan } rfl

/-- The fall of `rst` starts nothing. -/
theorem State.rst_fall_inv {s : State} (hs : s.Inv) : State.Inv { s with rst := false } := by
  obtain ⟨hwf, hlatch, -⟩ := (State.inv_iff s).mp hs
  exact (State.inv_iff _).mpr ⟨{ hwf with }, hlatch, fun h => by simp at h⟩

/-! ### The statements -/

/-- Settles O58: the well-formed parts of the reset state are evaluated, and its latch is empty. -/
theorem resetStateSatisfiesTheInvariant : Obligations.ResetStateSatisfiesTheInvariant :=
  State.reset_wellFormed.inv_of_latch_none rfl

/-- Settles O59, by the cases of one step. The schedule of inputs is no part of the invariant, so it holds of
the state from which the consumed input is taken away; then each agent keeps it. -/
theorem everyStepKeepsTheInvariant : Obligations.EveryStepKeepsTheInvariant := by
  intro s t hs hstep
  have hrest (rest : List Input) : State.Inv { s with inputs := rest } := hs
  rcases step_cases hstep with ⟨-, h⟩ | ⟨rest, -, h⟩ | ⟨a, rest, -, rfl⟩ | ⟨a, v, rest, -, rfl⟩ |
    ⟨rest, -, rfl⟩ | ⟨b, rest, -, rfl⟩
  · exact engineTurn_inv hs h
  · exact engineTurn_inv (hrest rest) h
  · split
    · exact hrest rest
    · rcases State.hostRead_eq { s with inputs := rest } a with h | h <;> rw [h] <;> exact hs
  · split
    · exact hrest rest
    · next hr => exact State.hostWrite_inv (hrest rest) (Bool.not_eq_true _ ▸ hr) a v
  · split
    · exact hrest rest
    · exact State.tick_inv (hrest rest)
  · split
    · exact State.takeReset_inv _
    · exact State.rst_fall_inv (hrest rest)

/-! ### Safe runs -/

theorem engineTurn_next (s : State) : ∃ t, engineTurn s = .next t ∧ t.inputs = s.inputs := by
  cases hl : s.latch with
  | none => exact ⟨s, by simp only [engineTurn, hl], rfl⟩
  | some w =>
    cases hr : s.rst with
    | true => exact ⟨s, by simp only [engineTurn, hl, hr, if_true], rfl⟩
    | false =>
      obtain ⟨e, u, hrun, hu⟩ := runCommand_keeps w s
      exact ⟨u.complete e, (engineTurn_of_latched hl hr).trans hrun, hu.host.inputs⟩

theorem State.hostWrite_inputs (s : State) (addr : BusAddr) (v : Word) :
    (s.hostWrite addr v).inputs = s.inputs := by
  obtain ⟨-, -, -, -, hinputs⟩ := s.writeTarget_status (target addr) v
  rcases s.hostWrite_cases addr v with ⟨-, h⟩ | ⟨-, h⟩ | ⟨-, h⟩ | ⟨-, h⟩ | ⟨-, h⟩ <;> rw [h]
  · split <;> rfl
  · split
    · rfl
    · exact hinputs

/-- Every input but a cycle with both strobes is applied, and applying it leaves the schedule alone. -/
theorem applyInput_next {i : Input} (hi : ∀ a v, i ≠ .readWrite a v) (s : State) :
    ∃ t, applyInput i s = .next t ∧ t.inputs = s.inputs := by
  cases i with
  | readWrite a v => exact absurd rfl (hi a v)
  | engine => exact engineTurn_next s
  | read a =>
    refine ⟨_, rfl, ?_⟩
    split
    · rfl
    · rcases s.hostRead_eq a with h | h <;> simp [h]
  | write a v =>
    refine ⟨_, rfl, ?_⟩
    split
    · rfl
    · exact s.hostWrite_inputs a v
  | tick =>
    refine ⟨_, rfl, ?_⟩
    split
    · rfl
    · rw [State.tick_eq]
  | rst level => exact ⟨_, rfl, by cases level <;> rfl⟩

/-- A step answers a next state unless the next input is a cycle with both strobes, and it uses up at most the
first input of the schedule. -/
theorem step_next {s : State} (hs : ∀ a v, Input.readWrite a v ∉ s.inputs) :
    ∃ t, step s = .next t ∧ t.inputs = s.inputs.tail := by
  cases hi : s.inputs with
  | nil =>
    obtain ⟨t, ht, hinputs⟩ := engineTurn_next s
    exact ⟨t, (step_of_inputs_nil hi).trans ht, hinputs.trans hi⟩
  | cons i rest =>
    have hne (a : BusAddr) (v : Word) : i ≠ .readWrite a v := by
      rintro rfl
      exact hs a v (by simp [hi])
    obtain ⟨t, ht, hinputs⟩ := applyInput_next hne { s with inputs := rest }
    exact ⟨t, (step_of_inputs_cons hi).trans ht, hinputs⟩

theorem core_run_succ {s t : State} (k : Nat) (h : step s = .next t) :
    Sys2Proof.core.run (k + 1) s = Sys2Proof.core.run k t := by
  have hcore : Sys2Proof.core.step s = .next t := h
  simp only [Host.Core.run, hcore]

/-- Settles O12: the refused cycle by the step's equation, the safe runs by induction on their length, since no
step puts a new input in the schedule. -/
theorem busConflictIsTheOnlyStop : Obligations.BusConflictIsTheOnlyStop := by
  refine ⟨fun s addr v rest hi => step_of_inputs_cons hi, fun k => ?_⟩
  induction k with
  | zero => exact fun s _ => ⟨s, rfl⟩
  | succ k ih =>
    intro s hs
    obtain ⟨t, hstep, hinputs⟩ := step_next hs
    obtain ⟨u, hrun⟩ := ih t fun a v hmem => hs a v (List.mem_of_mem_tail (hinputs ▸ hmem))
    exact ⟨u, (core_run_succ k hstep).trans hrun⟩

end Sys2Proof.Machine
end

section
/-! SUPPORT. Reads: each register word as a number (10_state R34 to R56), and that a target of the register map
reads as the number the map lists at its offset. -/

namespace Sys2Proof.Machine

/-! ### Words as numbers -/

/-- Appended fields add up, the upper one shifted by the width of the lower. -/
theorem toNat_append_eq_add {m n : Nat} (x : BitVec m) (y : BitVec n) :
    (x ++ y).toNat = 2 ^ n * x.toNat + y.toNat := by
  rw [BitVec.toNat_append, ← Nat.shiftLeft_add_eq_or_of_lt y.isLt, Nat.shiftLeft_eq, Nat.mul_comm]

/-- A register narrower than the bus reads as its own value. -/
theorem toNat_zeroExtend_word {w : Nat} (h : w ≤ 32) (x : BitVec w) : (x.zeroExtend 32).toNat = x.toNat :=
  BitVec.toNat_setWidth_of_le h

theorem State.errf_toNat (s : State) : s.errf.toNat = if s.err = .none then 0 else 1 := by
  unfold State.errf
  cases s.err <;> decide

theorem Parse.fatal_toNat (p : Parse) :
    p.fatal.toNat = if p.isNack = true ∧ 128 ≤ p.reason.toNat then 1 else 0 := by
  have hbit : fatalReason p.reason = decide (128 ≤ p.reason.toNat) := by
    rw [fatalReason, ← BitVec.msb_eq_getLsbD_last (w := 8), BitVec.msb_eq_decide]
  unfold Parse.fatal
  rw [hbit]
  cases p.isNack <;> simp [Bool.toNat, Bool.cond_decide]

theorem State.ctrlWord_toNat (s : State) : s.ctrlWord.toNat = s.allowNoenc.toNat := by
  simp only [State.ctrlWord, toNat_append_eq_add, BitVec.toNat_ofBool, BitVec.toNat_ofNat]
  omega

theorem State.statusWord_toNat (s : State) :
    s.statusWord.toNat = s.latch.isSome.toNat + 2 * (if s.err = .none then 0 else 1) + 2 ^ 8 * s.err.code.toNat
      + 2 ^ 16 * s.lastOp.toNat := by
  simp only [State.statusWord, toNat_append_eq_add, BitVec.toNat_ofBool, BitVec.toNat_ofNat, State.errf_toNat,
    State.busy]
  omega

theorem State.keyStatusWord_toNat (s : State) : s.keyStatusWord.toNat = s.oldValid.toNat := by
  simp only [State.keyStatusWord, toNat_append_eq_add, BitVec.toNat_ofBool, BitVec.toNat_ofNat]
  omega

theorem Parse.word0_toNat (p : Parse) :
    p.word0.toNat = p.valid.toNat + 2 * p.isNack.toNat
      + 4 * (if p.isNack = true ∧ 128 ≤ p.reason.toNat then 1 else 0) + 2 ^ 4 * p.msgId.toNat
      + 2 ^ 16 * p.handle.toNat + 2 ^ 24 * p.reason.toNat := by
  simp only [Parse.word0, toNat_append_eq_add, BitVec.toNat_ofBool, BitVec.toNat_ofNat, Parse.fatal_toNat]
  omega

theorem Channel.cfgWord_toNat (c : Channel) : c.cfgWord.toNat = c.toBase.toNat + 2 ^ 16 * c.toStep.toNat := by
  simp only [Channel.cfgWord, toNat_append_eq_add]
  omega

theorem Channel.stateWord_toNat (c : Channel) :
    c.stateWord.toNat = c.state.code.toNat + 2 ^ 4 * c.attempt.toNat + 2 ^ 8 * c.txType.code.toNat
      + 2 ^ 16 * c.expId.toNat := by
  simp only [Channel.stateWord, toNat_append_eq_add, BitVec.toNat_ofNat]
  omega

theorem Channel.resultWord_toNat (c : Channel) :
    c.resultWord.toNat = c.result.code.toNat + 2 ^ 8 * c.cause.code.toNat + 2 ^ 12 * c.handle.toNat
      + 2 ^ 16 * c.reason.toNat := by
  simp only [Channel.resultWord, toNat_append_eq_add, BitVec.toNat_ofNat]
  omega

theorem MidSlot.word_toNat (d : MidSlot) :
    d.word.toNat = d.last.toNat + 2 ^ 12 * d.valid.toNat + 2 ^ 13 * d.strict.toNat + 2 ^ 16 * d.txid.toNat := by
  simp only [MidSlot.word, toNat_append_eq_add, BitVec.toNat_ofBool, BitVec.toNat_ofNat]
  omega

theorem State.bufferWord_toNat (s : State) (off : Nat) :
    (s.bufferWord off).toNat = 2 ^ 24 * (s.readByte off).toNat + 2 ^ 16 * (s.readByte (off + 1)).toNat
      + 2 ^ 8 * (s.readByte (off + 2)).toNat + (s.readByte (off + 3)).toNat := by
  have hbytes : (List.range 4).map (fun i => s.readByte (off + i))
      = [s.readByte off, s.readByte (off + 1), s.readByte (off + 2), s.readByte (off + 3)] := rfl
  simp only [State.bufferWord, hbytes, be32, List.getD_cons_zero, List.getD_cons_succ, toNat_append_eq_add]
  omega

/-! ### The register map in numbers -/

/-- Above the registers the map lists slots, buffer words and nothing else. -/
theorem refRead_table (s : State) {off : Nat} (h : 0x09C < off) :
    refRead s off =
      if 0x400 ≤ off ∧ off < 0x400 + 4 * Config.nDev then (s.midSlot ((off - 0x400) / 4)).word.toNat
      else if (0x800 ≤ off ∧ off < 0x900) ∨ (0xC00 ≤ off ∧ off < 0xC80) then (s.bufferWord off).toNat
      else 0 := by
  rw [MidSlot.word_toNat, State.bufferWord_toNat]
  unfold refRead
  repeat rw [if_neg (by omega)]

/-- An offset that is neither a register nor in a table reads 0 (20_memory R105). -/
theorem refRead_reserved (s : State) {off : Nat} (haligned : off % 4 = 0) (hreg : off ∉ registerOffsets)
    (hmid : ¬ (0x400 ≤ off ∧ off < 0x400 + 4 * Config.nDev)) (hbuf : refNotBuffer off) : refRead s off = 0 := by
  simp only [registerOffsets, List.mem_cons, List.not_mem_nil, or_false, not_or] at hreg
  obtain ⟨hraw, henc⟩ := hbuf
  unfold refRead
  repeat rw [if_neg (by omega)]

/-- A target reads as the number the register map lists at its offset (10_state R33 to R58). -/
theorem WindowMap.refRead_eq {off : Nat} {tgt : Target} (h : WindowMap off tgt) (s : State) :
    refRead s off = (s.readTarget tgt).toNat := by
  cases h with
  | status => exact s.statusWord_toNat.symm
  | parse0 => exact s.parse.word0_toNat.symm
  | ctrl => exact s.ctrlWord_toNat.symm
  | keyStatus => exact s.keyStatusWord_toNat.symm
  | arbCfg0 => exact s.ch0.cfgWord_toNat.symm
  | arbState0 => exact s.ch0.stateWord_toNat.symm
  | arbResult0 => exact s.ch0.resultWord_toNat.symm
  | arbCfg1 => exact s.ch1.cfgWord_toNat.symm
  | arbState1 => exact s.ch1.stateWord_toNat.symm
  | arbResult1 => exact s.ch1.resultWord_toNat.symm
  | intStatus => exact (toNat_zeroExtend_word (by decide) s.intStatus).symm
  | intEnable => exact (toNat_zeroExtend_word (by decide) s.intEnable).symm
  | crcPoly => exact (toNat_zeroExtend_word (by decide) s.crcPoly).symm
  | crcInit => exact (toNat_zeroExtend_word (by decide) s.crcInit).symm
  | crcOrder => exact (toNat_zeroExtend_word (by decide) s.crcOrder).symm
  | xteaCfg => exact (toNat_zeroExtend_word (by decide) s.cpr).symm
  | @mid k hk =>
    rw [refRead_table s (by omega), if_pos (by omega), show (0x400 + 4 * k - 0x400) / 4 = k by omega]
    rfl
  | buffer haligned hoff =>
    have hdev := nDev_le
    rw [refRead_table s (by omega), if_neg (by omega), if_pos hoff]
    rfl
  | reserved haligned hreg hmid hbuf => exact refRead_reserved s haligned hreg hmid hbuf
  | _ => rfl

end Sys2Proof.Machine
end

section
/-! SUPPORT. The statements about host reads, the interrupt registers and the operands of an accepted
command. -/

namespace Sys2Proof.Machine

/-! ### Host reads -/

section
variable {s : State} {addr : BusAddr} {v : Word} {rest : List Input}

theorem step_read (hi : s.inputs = .read addr :: rest) (hr : s.rst = false) :
    step s = .next (State.hostRead { s with inputs := rest } addr) := by
  simp only [step_of_inputs_cons hi, applyInput, hr, Bool.false_eq_true, if_false]

theorem step_write (hi : s.inputs = .write addr v :: rest) (hr : s.rst = false) :
    step s = .next (State.hostWrite { s with inputs := rest } addr v) := by
  simp only [step_of_inputs_cons hi, applyInput, hr, Bool.false_eq_true, if_false]

theorem State.hostRead_of_true (h : s.latch = none ∨ (target addr).trueWhileBusy = true) :
    s.hostRead addr = { s with busRdata := s.readTarget (target addr) } := by
  refine if_neg ?_
  rintro ⟨hbusy, hfree⟩
  rcases h with hl | ht
  · simp [State.busy, hl] at hbusy
  · simp [ht] at hfree

theorem State.hostRead_of_free (hl : s.latch ≠ none) (h : (target addr).trueWhileBusy = false) :
    s.hostRead addr = s.readFree :=
  if_pos ⟨by simpa [State.busy, Option.isSome_iff_ne_none] using hl, h⟩

/-- A true read returns the number of the register map and changes nothing but the port (20_memory R107). -/
theorem step_read_true (hi : s.inputs = .read addr :: rest) (hr : s.rst = false)
    (h : s.latch = none ∨ (target addr).trueWhileBusy = true) :
    ∃ t, step s = .next t ∧ t = { s with inputs := rest, busRdata := t.busRdata } ∧
      t.busRdata.toNat = refRead s (refOffset addr) := by
  have hread := State.hostRead_of_true (s := { s with inputs := rest }) h
  exact ⟨_, hread ▸ step_read hi hr, rfl, ((windowMap_target addr).refRead_eq { s with inputs := rest }).symm⟩

/-- A free read returns the next draw and changes nothing but the port and the count of draws
(70_reset_and_hazards R491). -/
theorem step_read_free (hi : s.inputs = .read addr :: rest) (hr : s.rst = false) (hl : s.latch ≠ none)
    (h : (target addr).trueWhileBusy = false) : step s = .next (State.readFree { s with inputs := rest }) := by
  have hread := State.hostRead_of_free (s := { s with inputs := rest }) hl h
  exact hread ▸ step_read hi hr

end

/-- What a command may write is exactly what R491 makes free (70_reset_and_hazards R491). -/
theorem WindowMap.commandWritten_iff {off : Nat} {tgt : Target} (h : WindowMap off tgt) :
    refCommandWritten off ↔ tgt.trueWhileBusy = false := by
  cases h with
  | mid hk => simp only [refCommandWritten, Target.trueWhileBusy, iff_true]; omega
  | buffer haligned hoff => simp only [refCommandWritten, Target.trueWhileBusy, iff_true]; omega
  | reserved haligned hreg hmid hbuf =>
    simp only [registerOffsets, List.mem_cons, List.not_mem_nil, or_false, not_or] at hreg
    obtain ⟨hraw, henc⟩ := hbuf
    simp only [refCommandWritten, Target.trueWhileBusy, Bool.true_eq_false, iff_false]
    omega
  | _ => simp [refCommandWritten, Target.trueWhileBusy]

/-- Settles O49: while no command is latched every read is true. -/
theorem readsFollowTheRegisterMap : Obligations.ReadsFollowTheRegisterMap :=
  fun _ _ _ hi hr hl => step_read_true hi hr (.inl hl)

/-- Settles O50: R491's list of what a command may write decides which reads are free. -/
theorem readsWhileBusyAreTrueOrFree : Obligations.ReadsWhileBusyAreTrueOrFree := by
  intro s addr rest hi hr hl
  have hfree := (windowMap_target addr).commandWritten_iff
  constructor
  · intro h
    exact step_read_true hi hr (.inr (Bool.not_eq_false _ ▸ hfree.not.mp h))
  · intro h
    exact step_read_free hi hr hl (hfree.mp h)

/-! ### The interrupt registers -/

theorem target_intStatus {addr : BusAddr} (h : refOffset addr = 0x020) : target addr = .intStatus := by
  simp only [target, toNat_and_mask_eq_refOffset, h]

theorem target_intEnable {addr : BusAddr} (h : refOffset addr = 0x024) : target addr = .intEnable := by
  simp only [target, toNat_and_mask_eq_refOffset, h]

theorem State.hostWrite_intStatus (s : State) {addr : BusAddr} (h : target addr = .intStatus) (v : Word) :
    s.hostWrite addr v = { s with intStatus := s.intStatus &&& ~~~ (v.extractLsb' 0 5) } := by
  simp only [State.hostWrite, h]

theorem State.hostWrite_intEnable (s : State) {addr : BusAddr} (h : target addr = .intEnable) (v : Word) :
    s.hostWrite addr v = { s with intEnable := v.extractLsb' 0 5 } := by
  simp only [State.hostWrite, h]

/-- Settles O53: neither register asks whether a command is in progress. -/
theorem interruptRegistersAlwaysTakeWrites : Obligations.InterruptRegistersAlwaysTakeWrites := by
  intro s addr v rest hi hr
  constructor
  · intro hoff
    refine ⟨_, step_write hi hr, ?_⟩
    rw [State.hostWrite_intStatus _ (target_intStatus hoff)]
    exact ⟨rfl, fun b hb => by simp [hb]⟩
  · intro hoff
    refine ⟨_, step_write hi hr, ?_⟩
    rw [State.hostWrite_intEnable _ (target_intEnable hoff)]
    exact ⟨rfl, fun b hb => by simp [hb]⟩

/-- A word is not 0 exactly when one of its bits is 1. -/
theorem bitVec_ne_zero_iff {w : Nat} (x : BitVec w) : x ≠ 0 ↔ ∃ b < w, x.getLsbD b = true := by
  constructor
  · intro h
    by_contra hall
    push Not at hall
    exact h (BitVec.eq_of_getLsbD_eq fun b hb => by simpa using hall b hb)
  · rintro ⟨b, -, hbit⟩ rfl
    simp at hbit

/-- Settles O54: a bit of `INT_STATUS & INT_ENABLE` is 1 where both are. -/
theorem irqIsTheEnabledPendingBits : Obligations.IrqIsTheEnabledPendingBits := by
  intro s
  rw [State.irq, bne_iff_ne, bitVec_ne_zero_iff]
  simp only [BitVec.getLsbD_and, Bool.and_eq_true]

/-! ### The operands of an accepted command -/

/-- A host read changes the port and the count of draws alone (20_memory R107). -/
theorem State.hostRead_frame (s : State) (addr : BusAddr) :
    ∃ word count, s.hostRead addr = { s with busRdata := word, draws := count } := by
  rcases s.hostRead_eq addr with h | h
  · exact ⟨_, _, h⟩
  · exact ⟨_, _, h⟩

/-- While a command is latched a host write changes the interrupt registers alone (70_reset_and_hazards
R490). -/
theorem State.hostWrite_busy_frame {s : State} (hl : s.latch ≠ none) (addr : BusAddr) (v : Word) :
    ∃ status enable, s.hostWrite addr v = { s with intStatus := status, intEnable := enable } := by
  have hbusy : s.busy = true := by simpa [State.busy, Option.isSome_iff_ne_none] using hl
  rcases s.hostWrite_cases addr v with ⟨-, h⟩ | ⟨-, h⟩ | ⟨-, h⟩ | ⟨-, h⟩ | ⟨-, h⟩
  · exact ⟨_, _, h.trans (if_pos hbusy)⟩
  · exact ⟨_, _, h⟩
  · exact ⟨_, _, h⟩
  · exact ⟨_, _, h⟩
  · exact ⟨_, _, h.trans (if_pos hbusy)⟩

/-- While a command is latched, every input but the engine's turn and the rise of `rst` changes the interrupt
registers, the port, the draws and the level of `rst` alone, and the channels on a TICK. -/
theorem applyInput_busy_frame {s t : State} {i : Input} (hl : s.latch ≠ none) (hr : s.rst = false)
    (hengine : i ≠ .engine) (hrst : i ≠ .rst true) (h : applyInput i s = .next t) :
    ∃ status enable word count level c0 c1,
      t = { s with
        intStatus := status, intEnable := enable, busRdata := word, draws := count, rst := level,
        ch0 := c0, ch1 := c1 } ∧
      (i ≠ .tick → c0 = s.ch0 ∧ c1 = s.ch1) := by
  cases i with
  | engine => exact absurd rfl hengine
  | readWrite addr v => simp [applyInput] at h
  | read addr =>
    obtain ⟨word, count, hread⟩ := s.hostRead_frame addr
    have ht : s.hostRead addr = t := by simpa [applyInput, hr] using h
    exact ⟨_, _, word, count, _, _, _, ht.symm.trans hread, fun _ => ⟨rfl, rfl⟩⟩
  | write addr v =>
    obtain ⟨status, enable, hwrite⟩ := State.hostWrite_busy_frame hl addr v
    have ht : s.hostWrite addr v = t := by simpa [applyInput, hr] using h
    exact ⟨status, enable, _, _, _, _, _, ht.symm.trans hwrite, fun _ => ⟨rfl, rfl⟩⟩
  | tick =>
    have ht : s.tick = t := by simpa [applyInput, hr] using h
    exact ⟨_, _, _, _, _, _, _, ht.symm.trans s.tick_eq, fun hne => absurd rfl hne⟩
  | rst level =>
    cases level with
    | true => exact absurd rfl hrst
    | false => exact ⟨_, _, _, _, false, _, _, (Host.Outcome.next.inj h).symm, fun _ => ⟨rfl, rfl⟩⟩

/-- Settles O55: none of what a step may change while a command is latched is an operand. -/
theorem operandsStayFixedWhileBusy : Obligations.OperandsStayFixedWhileBusy := by
  intro s t i rest hstep hl hr hi hengine hrst
  rw [step_of_inputs_cons hi] at hstep
  obtain ⟨status, enable, word, count, level, c0, c1, rfl, hchan⟩ :=
    applyInput_busy_frame (s := { s with inputs := rest }) hl hr hengine hrst hstep
  exact ⟨rfl, rfl, rfl, rfl, rfl, rfl, rfl, rfl, rfl, rfl, rfl, rfl, rfl, rfl, rfl, rfl, rfl, rfl, hchan⟩

end Sys2Proof.Machine
end

section
/-! SUPPORT. Reset: the listed values of 10_state R63, and what happens while `rst` is 1 (70_reset_and_hazards
R480). -/

namespace Sys2Proof.Machine

/-- Every word offset has a target: inside the window the one `target` computes, above it none. -/
theorem exists_windowMap {off : Nat} (haligned : off % 4 = 0) : ∃ tgt, WindowMap off tgt := by
  have hdev := nDev_le
  by_cases hoff : off < 0x1000
  · have haddr : refOffset (BitVec.ofNat 12 off) = off := by
      rw [refOffset, BitVec.toNat_ofNat, Nat.mod_eq_of_lt hoff]
      omega
    exact ⟨_, haddr ▸ windowMap_target (BitVec.ofNat 12 off)⟩
  · refine ⟨.reserved, .reserved haligned ?_ (by omega) ⟨by omega, by omega⟩⟩
    simp only [registerOffsets, List.mem_cons, List.not_mem_nil, or_false]
    omega

/-- In the reset state every register reads its listed value (10_state R63). -/
theorem WindowMap.readTarget_reset {off : Nat} {tgt : Target} (h : WindowMap off tgt) (hbuf : refNotBuffer off) :
    (State.reset.readTarget tgt).toNat = refResetValue off := by
  cases h with
  | mid hk =>
    unfold refResetValue
    repeat rw [if_neg (by omega)]
    rw [if_pos (by omega)]
    exact (by decide : MidSlot.atReset.word.toNat = 0x2000)
  | buffer haligned hoff => exact absurd hoff (not_or.mpr hbuf)
  | reserved haligned hreg hmid hbuf =>
    simp only [registerOffsets, List.mem_cons, List.not_mem_nil, or_false, not_or] at hreg
    unfold refResetValue
    repeat rw [if_neg (by omega)]
    rfl
  | _ => rfl

/-- A reset of the running block gives every register the value of the reset state (70_reset_and_hazards
R480). -/
theorem WindowMap.readTarget_takeReset {off : Nat} {tgt : Target} (h : WindowMap off tgt)
    (hbuf : refNotBuffer off) (s : State) : s.takeReset.readTarget tgt = State.reset.readTarget tgt := by
  cases h with
  | buffer haligned hoff => exact absurd hoff (not_or.mpr hbuf)
  | _ => rfl

theorem refRead_reset {off : Nat} (haligned : off % 4 = 0) (hbuf : refNotBuffer off) :
    refRead State.reset off = refResetValue off := by
  obtain ⟨tgt, hmap⟩ := exists_windowMap haligned
  exact (hmap.refRead_eq State.reset).trans (hmap.readTarget_reset hbuf)

theorem refRead_takeReset (s : State) {off : Nat} (haligned : off % 4 = 0) (hbuf : refNotBuffer off) :
    refRead s.takeReset off = refResetValue off := by
  obtain ⟨tgt, hmap⟩ := exists_windowMap haligned
  rw [hmap.refRead_eq, hmap.readTarget_takeReset hbuf, hmap.readTarget_reset hbuf]

/-- Settles O56: offset by offset along the register map. -/
theorem resetStateHasTheListedValues : Obligations.ResetStateHasTheListedValues :=
  ⟨fun _ haligned hbuf => refRead_reset haligned hbuf, rfl, rfl⟩

/-- While `rst` is 1 the engine does nothing (70_reset_and_hazards R480). -/
theorem engineTurn_in_reset {s : State} (hr : s.rst = true) : engineTurn s = .next s := by
  cases hl : s.latch <;> simp [engineTurn, hl, hr]

/-- Settles O57: the rise of `rst`, the inputs that come while it is 1, and its fall. -/
theorem resetRestoresTheResetValues : Obligations.ResetRestoresTheResetValues := by
  refine ⟨fun s rest hi => ?_, fun s i rest hr hi => ⟨?_, ?_⟩, fun s rest hi => step_of_inputs_cons hi⟩
  · exact ⟨_, step_of_inputs_cons hi, rfl, rfl, rfl, fun _ haligned hbuf => refRead_takeReset _ haligned hbuf,
      fun _ => rfl⟩
  · rw [step_of_inputs_cons hi]
    rintro (rfl | rfl | ⟨addr, v, rfl⟩)
    · simp [applyInput, hr]
    · exact engineTurn_in_reset hr
    · simp [applyInput, hr]
  · rintro addr rfl
    simp [step_of_inputs_cons hi, applyInput, hr, State.readFree]

end Sys2Proof.Machine
end

section
/-! SUPPORT. Host writes of read-write targets: what the target then reads, and that no other target reads
differently (10_state R35 to R58, R64). -/

namespace Sys2Proof.Machine

/-- The writable bits of a slot (10_state R56). -/
theorem refWritable_mid {k : Nat} (hk : k < Config.nDev) : refWritable (0x400 + 4 * k) = 0x0FFF3FFF := by
  unfold refWritable
  repeat rw [if_neg (by omega)]
  rw [if_pos (by omega)]

/-- Every bit of a buffer word is writable (10_state R57, R58). -/
theorem refWritable_buffer {off : Nat} (hoff : (0x800 ≤ off ∧ off < 0x900) ∨ (0xC00 ≤ off ∧ off < 0xC80)) :
    refWritable off = 0xFFFFFFFF := by
  have hdev := nDev_le
  unfold refWritable
  repeat rw [if_neg (by omega)]
  rw [if_pos hoff]

/-- The targets a host write stores in are those with writable bits in the register map. -/
theorem WindowMap.writable_iff {off : Nat} {tgt : Target} (h : WindowMap off tgt) :
    refWritable off ≠ 0 ↔ tgt.guarded = true := by
  cases h with
  | mid hk => simp [refWritable_mid hk, Target.guarded]
  | buffer haligned hoff => simp [refWritable_buffer hoff, Target.guarded]
  | reserved haligned hreg hmid hbuf =>
    simp only [registerOffsets, List.mem_cons, List.not_mem_nil, or_false, not_or] at hreg
    obtain ⟨hraw, henc⟩ := hbuf
    unfold refWritable
    repeat rw [if_neg (by omega)]
    simp [Target.guarded]
  | _ => simp [refWritable, Target.guarded]

/-- Two offsets never share a target, but for the reserved ones. -/
theorem WindowMap.injective {off off' : Nat} {tgt : Target} (h : WindowMap off tgt) (h' : WindowMap off' tgt)
    (hr : tgt ≠ .reserved) : off = off' := by
  cases h with
  | reserved => exact absurd rfl hr
  | _ => cases h'; rfl

theorem State.hostWrite_guarded {s : State} {addr : BusAddr} (hl : s.latch = none)
    (hg : (target addr).guarded = true) (v : Word) : s.hostWrite addr v = s.writeTarget (target addr) v := by
  rcases s.hostWrite_cases addr v with ⟨ht, -⟩ | ⟨ht, -⟩ | ⟨ht, -⟩ | ⟨hng, -⟩ | ⟨-, h⟩
  · simp [ht, Target.guarded] at hg
  · simp [ht, Target.guarded] at hg
  · simp [ht, Target.guarded] at hg
  · simp [hg] at hng
  · simpa [State.busy, hl] using h

/-! ### The target written -/

/-- A field of the low `n` bits holds the word masked to them. -/
theorem toNat_low_bits {n : Nat} (v : Word) : (v.extractLsb' 0 n).toNat = v.toNat &&& (2 ^ n - 1) := by
  simp

theorem toNat_low_bit (v : Word) : (v.getLsbD 0).toNat = v.toNat &&& 0x1 := by
  rw [Nat.and_one_is_mod, BitVec.getLsbD, Nat.testBit_zero]
  rcases Nat.mod_two_eq_zero_or_one v.toNat with h | h <;> simp [h]

theorem toNat_all_bits (v : Word) : v.toNat = v.toNat &&& 0xFFFFFFFF := by
  have := v.isLt
  rw [Nat.and_two_pow_sub_one_eq_mod v.toNat 32]
  omega

/-- The two halves of ARBn_CFG make up the word written. -/
theorem extract_halves (v : Word) : v.extractLsb' 16 16 ++ v.extractLsb' 0 16 = v := by
  apply BitVec.eq_of_getLsbD_eq
  intro i hi
  rw [BitVec.getLsbD_append]
  by_cases h : i < 16
  · simp [h]
  · simp [h, show i - 16 < 16 by omega, show 16 + (i - 16) = i by omega]

/-- A slot reads as the word written without its reserved bits (10_state R56, R64). -/
theorem MidSlot.word_ofWord (v : Word) : (MidSlot.ofWord v).word = v &&& 0x0FFF3FFF#32 := by
  apply BitVec.eq_of_getLsbD_eq
  intro i hi
  simp only [MidSlot.word, MidSlot.ofWord, BitVec.getLsbD_append]
  interval_cases i <;> simp

/-- The word of a buffer that was just written reads back. -/
theorem State.bufferWord_writeBytes_self (s : State) (x : Nat) (v : Word) :
    (s.writeBytes x (bytesOf v)).bufferWord x = v := by
  have hbytes : (List.range 4).map (fun i => (s.writeBytes x (bytesOf v)).readByte (x + i)) = bytesOf v := by
    apply List.ext_getElem
    · rfl
    · intro i hi hi'
      rw [List.getElem_map, List.getElem_range, State.readByte_writeBytes_inside]
  have := be32_bytesOf v []
  rw [State.bufferWord, hbytes]
  rwa [List.append_nil] at this

/-- A written target reads as the word written, masked to its writable bits; CRC_ORDER, whose value may be
refused, is `readTarget_writeTarget_crcOrder`. -/
theorem WindowMap.readTarget_writeTarget_self {off : Nat} {tgt : Target} (h : WindowMap off tgt) {s : State}
    (hmid : MidTable.wf s.mid = true) (v : Word) (hg : tgt.guarded = true) (hoff : off ≠ 0x038) :
    ((s.writeTarget tgt v).readTarget tgt).toNat = v.toNat &&& refWritable off := by
  cases h with
  | ctrl => exact (State.ctrlWord_toNat _).trans (toNat_low_bit v)
  | keyStatus => exact (State.keyStatusWord_toNat _).trans (toNat_low_bit v)
  | crcPoly => exact (toNat_zeroExtend_word (by decide) _).trans (toNat_low_bits v)
  | crcInit => exact (toNat_zeroExtend_word (by decide) _).trans (toNat_low_bits v)
  | xteaCfg => exact (toNat_zeroExtend_word (by decide) _).trans (toNat_low_bits v)
  | arbCfg0 => exact (congrArg BitVec.toNat (extract_halves v)).trans (toNat_all_bits v)
  | arbCfg1 => exact (congrArg BitVec.toNat (extract_halves v)).trans (toNat_all_bits v)
  | crcOrder => exact absurd rfl hoff
  | @mid k hk =>
    have hslot := State.midSlot_setMid_self s k (MidSlot.ofWord v) hmid
    simp only [State.readTarget, State.writeTarget, hslot, MidSlot.word_ofWord, refWritable_mid hk,
      BitVec.toNat_and, BitVec.toNat_ofNat]
  | buffer haligned hrange =>
    rw [refWritable_buffer hrange, ← toNat_all_bits]
    exact congrArg BitVec.toNat (s.bufferWord_writeBytes_self off v)
  | arg0 | curKey0 | curKey1 | curKey2 | curKey3 | oldKey0 | oldKey1 | oldKey2 | oldKey3 =>
    exact toNat_all_bits v
  | _ => simp [Target.guarded] at hg

/-- CRC_ORDER takes a legal value and keeps its own on an illegal one (10_state R45). -/
theorem State.readTarget_writeTarget_crcOrder (s : State) (v : Word) :
    ((s.writeTarget .crcOrder v).readTarget .crcOrder).toNat =
      if 1 ≤ v.toNat % 32 ∧ v.toNat % 32 ≤ 16 then v.toNat % 32 else (s.readTarget .crcOrder).toNat := by
  have hfield : (v.extractLsb' 0 5).toNat = v.toNat % 32 := by simp
  have hlegal : (1 ≤ v.extractLsb' 0 5 ∧ v.extractLsb' 0 5 ≤ 16) ↔ (1 ≤ v.toNat % 32 ∧ v.toNat % 32 ≤ 16) := by
    rw [← hfield, BitVec.le_def, BitVec.le_def]
    rfl
  have hwidth (x : BitVec 5) : (x.zeroExtend 32).toNat = x.toNat := toNat_zeroExtend_word (by decide) x
  simp only [State.readTarget, State.writeTarget, legalOrder, hlegal, hwidth]
  split
  · exact hfield
  · rfl

/-! ### The other targets -/

/-- A word of a buffer that does not meet the bytes written keeps its value. -/
theorem State.bufferWord_writeBytes_outside (s : State) {x y : Nat} {vs : List Byte}
    (h : y + 4 ≤ x ∨ x + vs.length ≤ y) : (s.writeBytes x vs).bufferWord y = s.bufferWord y := by
  have hbytes : (List.range 4).map (fun i => (s.writeBytes x vs).readByte (y + i))
      = (List.range 4).map (fun i => s.readByte (y + i)) := by
    refine List.map_congr_left fun i hi => s.readByte_writeBytes_outside ?_
    rw [List.mem_range] at hi
    omega
  rw [State.bufferWord, State.bufferWord, hbytes]

/-- A write of one target leaves what every other target reads (10_state R64); two buffer words must not
overlap. -/
theorem State.readTarget_writeTarget_ne (s : State) {tgt tgt' : Target} (hne : tgt' ≠ tgt)
    (hdisjoint : ∀ x y, tgt = .buffer x → tgt' = .buffer y → y + 4 ≤ x ∨ x + 4 ≤ y) (v : Word) :
    (s.writeTarget tgt v).readTarget tgt' = s.readTarget tgt' := by
  cases tgt with
  | mid k =>
    cases tgt' with
    | mid j =>
      have hjk : j ≠ k := fun h => hne (congrArg Target.mid h)
      exact congrArg MidSlot.word (s.midSlot_setMid_ne (MidSlot.ofWord v) hjk)
    | _ => rfl
  | buffer x =>
    cases tgt' with
    | buffer y => exact s.bufferWord_writeBytes_outside (hdisjoint x y rfl rfl)
    | _ => rfl
  | arbCfg n =>
    cases tgt' with
    | arbCfg m =>
      have hmn : m ≠ n := fun h => hne (congrArg Target.arbCfg h)
      exact congrArg Channel.cfgWord (s.setChan_chan_ne _ hmn)
    | arbState m | arbTimer m | arbResult m => cases n <;> cases m <;> rfl
    | _ => cases n <;> rfl
  | _ =>
    cases tgt' <;> try exact absurd rfl hne
    all_goals rfl

/-- After a write of one offset of the register map every other offset reads as before. -/
theorem WindowMap.refRead_writeTarget_ne {off off' : Nat} {tgt : Target} (h : WindowMap off tgt)
    (hg : tgt.guarded = true) (haligned : off % 4 = 0) (haligned' : off' % 4 = 0) (hne : off' ≠ off) (s : State)
    (v : Word) : refRead (s.writeTarget tgt v) off' = refRead s off' := by
  obtain ⟨tgt', h'⟩ := exists_windowMap haligned'
  have htgt : tgt' ≠ tgt := by
    rintro rfl
    exact hne (h'.injective h (by rintro rfl; simp [Target.guarded] at hg))
  rw [h'.refRead_eq, h'.refRead_eq, State.readTarget_writeTarget_ne s htgt]
  rintro x y rfl rfl
  cases h
  cases h'
  omega

/-- Settles O51: the idle write stores in the target of its offset, which reads back masked, and the targets of
all other offsets keep what they read. -/
theorem writesStoreTheWritableBits : Obligations.WritesStoreTheWritableBits := by
  intro s addr v rest hi hr hl hwf off hw
  have hmap : WindowMap off (target addr) := windowMap_target addr
  have hg := hmap.writable_iff.mp hw
  obtain ⟨hlatch, -, -, -, hinputs⟩ := State.writeTarget_status { s with inputs := rest } (target addr) v
  have hstep := step_write hi hr
  rw [State.hostWrite_guarded (s := { s with inputs := rest }) hl hg] at hstep
  refine ⟨_, hstep, hinputs, hlatch.trans hl, fun hoff => ?_, fun hoff => ?_, fun off' haligned' hne => ?_⟩
  · rw [hmap.refRead_eq]
    exact hmap.readTarget_writeTarget_self (s := { s with inputs := rest }) hwf v hg hoff
  · have htgt : target addr = .crcOrder := by
      simp only [target, toNat_and_mask_eq_refOffset, show refOffset addr = 0x038 from hoff]
    rw [hmap.refRead_eq, hmap.refRead_eq, htgt]
    exact State.readTarget_writeTarget_crcOrder { s with inputs := rest } v
  · exact hmap.refRead_writeTarget_ne hg (refOffset_aligned addr) haligned' hne { s with inputs := rest } v

end Sys2Proof.Machine
end

section
/-! SUPPORT. Host writes that store nothing: the writes a command in progress turns into WERR, and those of
read-only registers and reserved offsets (20_memory R105, 70_reset_and_hazards R490). -/

namespace Sys2Proof.Machine

theorem target_cmd {addr : BusAddr} (h : refOffset addr = 0x00C) : target addr = .cmd := by
  simp only [target, toNat_and_mask_eq_refOffset, h]

/-- An offset of the register map that differs from a target's own offset does not hold that target, the
reserved ones aside. -/
theorem target_ne_of_refOffset_ne {addr : BusAddr} {off : Nat} {tgt : Target} (h : WindowMap off tgt)
    (htgt : tgt ≠ .reserved) (hne : refOffset addr ≠ off) : target addr ≠ tgt := by
  rintro rfl
  exact hne ((windowMap_target addr).injective h htgt)

/-- While a command is latched a write of CMD or of a guarded target sets WERR alone (70_reset_and_hazards
R490). -/
theorem State.hostWrite_busy {s : State} {addr : BusAddr} (hl : s.latch ≠ none)
    (h : (target addr).guarded = true ∨ target addr = .cmd) (v : Word) :
    s.hostWrite addr v = s.setInt intWerr := by
  have hbusy : s.busy = true := by simpa [State.busy, Option.isSome_iff_ne_none] using hl
  rcases s.hostWrite_cases addr v with ⟨-, hw⟩ | ⟨ht, -⟩ | ⟨ht, -⟩ | ⟨hng, hw⟩ | ⟨-, hw⟩
  · exact hw.trans (if_pos hbusy)
  · simp [ht, Target.guarded] at h
  · simp [ht, Target.guarded] at h
  · have hcmd : target addr = .cmd := h.resolve_left (by simp [hng])
    simp only [State.hostWrite, hcmd, hbusy, if_true]
  · exact hw.trans (if_pos hbusy)

/-- A write of a target that is neither guarded nor CMD, INT_STATUS or INT_ENABLE changes nothing (20_memory
R105). -/
theorem State.hostWrite_unguarded {s : State} {addr : BusAddr} (hg : (target addr).guarded = false)
    (hcmd : target addr ≠ .cmd) (hstatus : target addr ≠ .intStatus) (henable : target addr ≠ .intEnable)
    (v : Word) : s.hostWrite addr v = s := by
  rcases s.hostWrite_cases addr v with ⟨ht, -⟩ | ⟨ht, -⟩ | ⟨ht, -⟩ | ⟨-, hw⟩ | ⟨hg', -⟩
  · exact absurd ht hcmd
  · exact absurd ht hstatus
  · exact absurd ht henable
  · exact hw
  · simp [hg] at hg'

/-- Settles O52: the guarded targets are the offsets with writable bits, and of the others only CMD, INT_STATUS
and INT_ENABLE take a write. -/
theorem ignoredWritesWhileBusyOnlySetWerr : Obligations.IgnoredWritesWhileBusyOnlySetWerr := by
  intro s addr v rest hi hr off
  have hwritable : refWritable off ≠ 0 ↔ (target addr).guarded = true := (windowMap_target addr).writable_iff
  have hstep := step_write hi hr
  constructor
  · intro hl hoff
    have hignored : (target addr).guarded = true ∨ target addr = .cmd := hoff.imp hwritable.mp target_cmd
    rw [State.hostWrite_busy (s := { s with inputs := rest }) hl hignored] at hstep
    exact hstep
  · intro hro hcmd hstatus henable
    have hg : (target addr).guarded = false := Bool.eq_false_iff.mpr fun h => hwritable.mpr h hro
    rw [State.hostWrite_unguarded hg (target_ne_of_refOffset_ne .cmd (by decide) hcmd)
      (target_ne_of_refOffset_ne .intStatus (by decide) hstatus)
      (target_ne_of_refOffset_ne .intEnable (by decide) henable)] at hstep
    exact hstep

end Sys2Proof.Machine
end

section
/-! SUPPORT. The fields of a command word: their numbers, the fields of a word built or masked, and that the
fields determine the word (30_encoding R140). -/

namespace Sys2Proof

/-! ### The fields as numbers -/

theorem fieldOp_toNat (w : Word) : (fieldOp w).toNat = w.toNat % 2 ^ 8 := by
  rw [fieldOp, BitVec.extractLsb'_toNat, Nat.shiftRight_zero]

theorem fieldA_eq (w : Word) : fieldA w = w.toNat / 2 ^ 8 % 2 ^ 8 := by
  rw [fieldA, BitVec.extractLsb'_toNat, Nat.shiftRight_eq_div_pow]

theorem fieldB_eq (w : Word) : fieldB w = w.toNat / 2 ^ 16 % 2 ^ 9 := by
  rw [fieldB, BitVec.extractLsb'_toNat, Nat.shiftRight_eq_div_pow]

theorem fieldM_toNat (w : Word) : (fieldM w).toNat = w.toNat / 2 ^ 25 % 2 ^ 2 := by
  rw [fieldM, BitVec.extractLsb'_toNat, Nat.shiftRight_eq_div_pow]

theorem fieldK_toNat (w : Word) : (fieldK w).toNat = w.toNat / 2 ^ 27 % 2 := by
  rw [fieldK, BitVec.getLsbD, Nat.toNat_testBit]

theorem fieldRsv_toNat (w : Word) : (fieldRsv w).toNat = w.toNat / 2 ^ 28 := by
  rw [fieldRsv, BitVec.extractLsb'_toNat, Nat.shiftRight_eq_div_pow]
  omega

theorem fieldA_lt (w : Word) : fieldA w < 256 := BitVec.isLt _

theorem fieldB_lt (w : Word) : fieldB w < 512 := BitVec.isLt _

/-! ### The operand fields together -/

/-- The four operand fields of a command word (30_encoding R140). -/
structure Operands where
  a : Nat
  b : Nat
  m : BitVec 2
  k : Bool

/-- The operand fields of the word `w`. -/
def fieldOperands (w : Word) : Operands := ⟨fieldA w, fieldB w, fieldM w, fieldK w⟩

/-- The six fields cover the word. -/
theorem word_eq_of_fields {w w' : Word} (hrsv : fieldRsv w = fieldRsv w') (hop : fieldOp w = fieldOp w')
    (hoperands : fieldOperands w = fieldOperands w') : w = w' := by
  obtain ⟨ha, hb, hm, hk⟩ := Operands.mk.inj hoperands
  have hrsv := congrArg BitVec.toNat hrsv
  have hop := congrArg BitVec.toNat hop
  have hm := congrArg BitVec.toNat hm
  have hk := congrArg Bool.toNat hk
  rw [fieldRsv_toNat, fieldRsv_toNat] at hrsv
  rw [fieldOp_toNat, fieldOp_toNat] at hop
  rw [fieldA_eq, fieldA_eq] at ha
  rw [fieldB_eq, fieldB_eq] at hb
  rw [fieldM_toNat, fieldM_toNat] at hm
  rw [fieldK_toNat, fieldK_toNat] at hk
  apply BitVec.eq_of_toNat_eq
  omega

/-! ### The fields of a word built from fields -/

theorem commandWord_toNat (op : BitVec 8) (a b : Nat) (m : BitVec 2) (k : Bool) :
    (commandWord op a b m k).toNat =
      op.toNat + 2 ^ 8 * (a % 2 ^ 8) + 2 ^ 16 * (b % 2 ^ 9) + 2 ^ 25 * m.toNat + 2 ^ 27 * k.toNat := by
  simp only [commandWord, Machine.toNat_append_eq_add, BitVec.toNat_ofBool, BitVec.toNat_ofNat]
  omega

/-- A word built from operands that fit their fields holds these operands. -/
theorem fieldOperands_commandWord (op : BitVec 8) {a b : Nat} (ha : a < 256) (hb : b < 512) (m : BitVec 2)
    (k : Bool) : fieldOperands (commandWord op a b m k) = ⟨a, b, m, k⟩ := by
  have hw := commandWord_toNat op a b m k
  have hop := op.isLt
  have hm := m.isLt
  have hk := k.toNat_lt
  have hA : fieldA (commandWord op a b m k) = a := by rw [fieldA_eq]; omega
  have hB : fieldB (commandWord op a b m k) = b := by rw [fieldB_eq]; omega
  have hM : fieldM (commandWord op a b m k) = m := BitVec.eq_of_toNat_eq (by rw [fieldM_toNat]; omega)
  have hK : fieldK (commandWord op a b m k) = k := by
    rw [Bool.eq_iff_iff, ← Bool.toNat_eq_one, ← Bool.toNat_eq_one, fieldK_toNat]
    omega
  rw [fieldOperands, hA, hB, hM, hK]

/-! ### The fields of a masked word: a field covered by the mask is kept, a field outside it is 0 -/

section
variable {w mask : Word}

theorem fieldRsv_and (h : fieldRsv mask = BitVec.allOnes 4) : fieldRsv (w &&& mask) = fieldRsv w :=
  BitVec.extractLsb'_and.trans (by rw [← fieldRsv, ← fieldRsv, h, BitVec.and_allOnes])

theorem fieldOp_and (h : fieldOp mask = BitVec.allOnes 8) : fieldOp (w &&& mask) = fieldOp w :=
  BitVec.extractLsb'_and.trans (by rw [← fieldOp, ← fieldOp, h, BitVec.and_allOnes])

theorem fieldA_and : fieldA (w &&& mask) = fieldA w &&& fieldA mask := by
  rw [fieldA, BitVec.extractLsb'_and, BitVec.toNat_and, fieldA, fieldA]

theorem fieldB_and : fieldB (w &&& mask) = fieldB w &&& fieldB mask := by
  rw [fieldB, BitVec.extractLsb'_and, BitVec.toNat_and, fieldB, fieldB]

theorem fieldA_and_of_used (h : fieldA mask = 2 ^ 8 - 1) : fieldA (w &&& mask) = fieldA w := by
  rw [fieldA_and, h, Nat.and_two_pow_sub_one_eq_mod, Nat.mod_eq_of_lt (fieldA_lt w)]

theorem fieldA_and_of_unused (h : fieldA mask = 0) : fieldA (w &&& mask) = 0 := by
  rw [fieldA_and, h, Nat.and_zero]

theorem fieldB_and_of_used (h : fieldB mask = 2 ^ 9 - 1) : fieldB (w &&& mask) = fieldB w := by
  rw [fieldB_and, h, Nat.and_two_pow_sub_one_eq_mod, Nat.mod_eq_of_lt (fieldB_lt w)]

theorem fieldB_and_of_unused (h : fieldB mask = 0) : fieldB (w &&& mask) = 0 := by
  rw [fieldB_and, h, Nat.and_zero]

theorem fieldM_and_of_used (h : fieldM mask = BitVec.allOnes 2) : fieldM (w &&& mask) = fieldM w :=
  BitVec.extractLsb'_and.trans (by rw [← fieldM, ← fieldM, h, BitVec.and_allOnes])

theorem fieldM_and_of_unused (h : fieldM mask = 0) : fieldM (w &&& mask) = 0 :=
  BitVec.extractLsb'_and.trans (by rw [← fieldM, ← fieldM, h]; exact BitVec.and_zero)

theorem fieldK_and : fieldK (w &&& mask) = (fieldK w && fieldK mask) := BitVec.getLsbD_and

theorem fieldK_and_of_used (h : fieldK mask = true) : fieldK (w &&& mask) = fieldK w := by
  rw [fieldK_and, h, Bool.and_true]

theorem fieldK_and_of_unused (h : fieldK mask = false) : fieldK (w &&& mask) = false := by
  rw [fieldK_and, h, Bool.and_false]

end

end Sys2Proof
end

section
/-! SUPPORT. The operands of an instruction and what they say of its word, and the decoder as an equation
between fields (30_encoding R147, R148). -/

namespace Sys2Proof

/-! ### Operand K (30_encoding R144) -/

@[simp] theorem KeySel.toK_ofK (k : Bool) : (KeySel.ofK k).toK = k := by cases k <;> rfl
@[simp] theorem KeySel.ofK_eq_iff (b : Bool) (k : KeySel) : KeySel.ofK b = k ↔ b = k.toK := by
  cases b <;> cases k <;> decide
@[simp] theorem StartSel.toK_ofK (k : Bool) : (StartSel.ofK k).toK = k := by cases k <;> rfl
@[simp] theorem StartSel.ofK_eq_iff (b : Bool) (k : StartSel) : StartSel.ofK b = k ↔ b = k.toK := by
  cases b <;> cases k <;> decide
@[simp] theorem FrameKind.toK_ofK (k : Bool) : (FrameKind.ofK k).toK = k := by cases k <;> rfl
@[simp] theorem FrameKind.ofK_eq_iff (b : Bool) (k : FrameKind) : FrameKind.ofK b = k ↔ b = k.toK := by
  cases b <;> cases k <;> decide
@[simp] theorem Chan.toK_ofK (k : Bool) : (Chan.ofK k).toK = k := by cases k <;> rfl
@[simp] theorem Chan.ofK_eq_iff (b : Bool) (k : Chan) : Chan.ofK b = k ↔ b = k.toK := by
  cases b <;> cases k <;> decide

/-! ### The operands of an instruction -/

/-- The operands of an instruction as fields of its word; a field its command does not use holds 0
(30_encoding R151; log 17). -/
def Instr.operands : Instr → Operands
  | .nop | .pidInfo | .keyRotate | .keyCommit | .nackFatal => ⟨0, 0, 0, false⟩
  | .encode a b | .decode a b | .payDecode a b => ⟨a, b, 0, false⟩
  | .payEncode a b m => ⟨a, b, m, false⟩
  | .crcCompute a b k | .crcCheck a b k | .crcFill a b k => ⟨a, b, 0, k.toK⟩
  | .ackParse a b k => ⟨a, b, 0, k.toK⟩
  | .xteaEnc a b m k | .xteaDec a b m k | .openPayload a b m k => ⟨a, b, m, k.toK⟩
  | .midNext a | .midValidate a => ⟨a, 0, 0, false⟩
  | .arbStart k | .arbResend k | .arbRespond k | .arbAbort k => ⟨0, 0, 0, k.toK⟩

/-- The operand fields of the word `w` that the command of `i` uses, and 0 for the others (30_encoding R148). -/
def Instr.usedOperands (i : Instr) (w : Word) : Operands :=
  match i with
  | .nop | .pidInfo | .keyRotate | .keyCommit | .nackFatal => ⟨0, 0, 0, false⟩
  | .encode .. | .decode .. | .payDecode .. => ⟨fieldA w, fieldB w, 0, false⟩
  | .payEncode .. => ⟨fieldA w, fieldB w, fieldM w, false⟩
  | .crcCompute .. | .crcCheck .. | .crcFill .. | .ackParse .. => ⟨fieldA w, fieldB w, 0, fieldK w⟩
  | .xteaEnc .. | .xteaDec .. | .openPayload .. => ⟨fieldA w, fieldB w, fieldM w, fieldK w⟩
  | .midNext .. | .midValidate .. => ⟨fieldA w, 0, 0, false⟩
  | .arbStart .. | .arbResend .. | .arbRespond .. | .arbAbort .. => ⟨0, 0, 0, fieldK w⟩

theorem encode_eq_commandWord (i : Instr) :
    encode i = commandWord i.opcode i.operands.a i.operands.b i.operands.m i.operands.k := by
  cases i <;> rfl

theorem fitsA_iff (a : Nat) : fitsA a = true ↔ a < 256 := iff_of_eq Nat.blt_eq

theorem fitsB_iff (b : Nat) : fitsB b = true ↔ b < 512 := iff_of_eq Nat.blt_eq

/-- An unused operand is 0, so the well-formed instructions are those whose A and B fit their fields. -/
theorem Instr.wellFormed_iff (i : Instr) : i.wellFormed = true ↔ i.operands.a < 256 ∧ i.operands.b < 512 := by
  cases i <;> simp [Instr.wellFormed, Instr.operands, fitsA_iff, fitsB_iff]

theorem fieldRsv_encode (i : Instr) : fieldRsv (encode i) = 0 := by
  rw [encode_eq_commandWord, fieldRsv_commandWord]

theorem fieldOp_encode (i : Instr) : fieldOp (encode i) = i.opcode := by
  rw [encode_eq_commandWord, fieldOp_commandWord]

theorem fieldOperands_encode {i : Instr} (h : i.wellFormed = true) : fieldOperands (encode i) = i.operands := by
  obtain ⟨ha, hb⟩ := i.wellFormed_iff.mp h
  rw [encode_eq_commandWord, fieldOperands_commandWord _ ha hb]

/-! ### The decoder -/

theorem fieldRsv_and_usedMask (w : Word) (i : Instr) : fieldRsv (w &&& i.usedMask) = fieldRsv w :=
  fieldRsv_and (by cases i <;> simp only [Instr.usedMask] <;> decide)

theorem fieldOp_and_usedMask (w : Word) (i : Instr) : fieldOp (w &&& i.usedMask) = fieldOp w :=
  fieldOp_and (by cases i <;> simp only [Instr.usedMask] <;> decide)

/-- The used bits of a word hold the operand fields the command uses, and 0 in the others (30_encoding R146). -/
theorem fieldOperands_and_usedMask (w : Word) (i : Instr) :
    fieldOperands (w &&& i.usedMask) = i.usedOperands w := by
  cases i <;>
    simp (disch := decide) only [fieldOperands, Instr.usedMask, Instr.usedOperands, fieldA_and_of_used,
      fieldA_and_of_unused, fieldB_and_of_used, fieldB_and_of_unused, fieldM_and_of_used, fieldM_and_of_unused,
      fieldK_and_of_used, fieldK_and_of_unused]

/-- The word of an instruction holds its operands in the fields its command uses. -/
theorem usedOperands_encode {i : Instr} (h : i.wellFormed = true) : i.usedOperands (encode i) = i.operands := by
  have hfields := fieldOperands_encode h
  cases i <;> simp_all [fieldOperands, Instr.operands, Instr.usedOperands]

/-- The decoder reads the operands of the opcode's command from the fields that command uses. -/
theorem decodeOp_eq_some_iff {op : Nat} {w : Word} {i : Instr} :
    decodeOp op w = some i ↔ op = i.opcode.toNat ∧ i.usedOperands w = i.operands := by
  constructor
  · intro h
    unfold decodeOp at h
    split at h <;> cases h <;> exact ⟨rfl, by simp [Instr.usedOperands, Instr.operands]⟩
  · rintro ⟨rfl, h⟩
    cases i <;> simp_all [Instr.usedOperands, Instr.operands, Instr.opcode, decodeOp]

theorem decode_eq_ok_iff_decodeOp {w : Word} {i : Instr} :
    decode w = .ok i ↔ fieldRsv w = 0 ∧ decodeOp (fieldOp w).toNat w = some i := by
  unfold decode
  by_cases hrsv : fieldRsv w = 0
  · rw [if_neg (not_not.mpr hrsv), and_iff_right hrsv]
    cases decodeOp (fieldOp w).toNat w <;> simp
  · rw [if_pos hrsv]
    exact ⟨nofun, fun h => absurd h.left hrsv⟩

/-- A word decodes to `i` exactly when its fields are those of `i`, as far as the command of `i` uses them. -/
theorem decode_eq_ok_iff_fields {w : Word} {i : Instr} :
    decode w = .ok i ↔ fieldRsv w = 0 ∧ fieldOp w = i.opcode ∧ i.usedOperands w = i.operands := by
  rw [decode_eq_ok_iff_decodeOp, decodeOp_eq_some_iff, BitVec.toNat_inj]

/-- A word decodes to `i` exactly when `i` is well formed and the used bits of the word are the word of `i`
(30_encoding R146, R148). -/
theorem decode_eq_ok_iff {w : Word} {i : Instr} :
    decode w = .ok i ↔ i.wellFormed = true ∧ encode i = w &&& i.usedMask := by
  rw [decode_eq_ok_iff_fields, ← fieldOperands_and_usedMask]
  constructor
  · rintro ⟨hrsv, hop, hoperands⟩
    have hwf : i.wellFormed = true := i.wellFormed_iff.mpr (hoperands ▸ ⟨fieldA_lt _, fieldB_lt _⟩)
    refine ⟨hwf, word_eq_of_fields ?_ ?_ ?_⟩
    · rw [fieldRsv_encode, fieldRsv_and_usedMask, hrsv]
    · rw [fieldOp_encode, fieldOp_and_usedMask, hop]
    · rw [fieldOperands_encode hwf, hoperands]
  · rintro ⟨hwf, hword⟩
    refine ⟨?_, ?_, ?_⟩
    · rw [← fieldRsv_and_usedMask w i, ← hword, fieldRsv_encode]
    · rw [← fieldOp_and_usedMask w i, ← hword, fieldOp_encode]
    · rw [← hword, fieldOperands_encode hwf]

/-- The opcodes of the map are those the decoder knows (30_encoding R147). -/
theorem exists_decodeOp_iff (op : Nat) (w : Word) :
    (∃ i, decodeOp op w = some i) ↔ op ∈ Machine.refOpcodes := by
  constructor
  · rintro ⟨i, hi⟩
    obtain ⟨rfl, -⟩ := decodeOp_eq_some_iff.mp hi
    cases i <;> simp [Instr.opcode, Machine.refOpcodes]
  · intro hop
    fin_cases hop <;> exact ⟨_, rfl⟩

theorem fieldRsv_eq_zero_iff (w : Word) : fieldRsv w = 0 ↔ w.toNat / 2 ^ 28 = 0 := by
  rw [← fieldRsv_toNat]
  exact BitVec.toNat_inj.symm

/-- A word decodes exactly when RSV is 0 and OP is assigned (30_encoding R145, R147). -/
theorem exists_decode_iff (w : Word) :
    (∃ i, decode w = .ok i) ↔ w.toNat / 2 ^ 28 = 0 ∧ w.toNat % 256 ∈ Machine.refOpcodes := by
  simp only [decode_eq_ok_iff_decodeOp, exists_and_left, exists_decodeOp_iff, fieldRsv_eq_zero_iff, fieldOp_toNat]
  rfl

end Sys2Proof
end

section
/-! SUPPORT. The statements about the encoding (30_encoding). -/

namespace Sys2Proof.Machine

/-- Settles O1: the fields of the word of `i` are the operands of `i`. -/
theorem decodeOfEncodeIsTheInstruction : Obligations.DecodeOfEncodeIsTheInstruction := fun i hwf =>
  decode_eq_ok_iff_fields.mpr ⟨fieldRsv_encode i, fieldOp_encode i, usedOperands_encode hwf⟩

/-- Settles O2: one direction of `decode_eq_ok_iff`. -/
theorem encodeOfDecodeKeepsTheUsedBits : Obligations.EncodeOfDecodeKeepsTheUsedBits := fun _ _ =>
  decode_eq_ok_iff.mp

/-- Settles O3: the decoder's opcodes are those of the map, and it refuses a word with RSV not 0. -/
theorem decodeAcceptsExactlyTheOpcodeMap : Obligations.DecodeAcceptsExactlyTheOpcodeMap := exists_decode_iff

/-- Settles O4: by `decode_eq_ok_iff` the used bits of a word say what it decodes to. -/
theorem unusedFieldsAreIgnored : Obligations.UnusedFieldsAreIgnored := by
  intro w w' i hd hused
  obtain ⟨hwf, hword⟩ := decode_eq_ok_iff.mp hd
  exact decode_eq_ok_iff.mpr ⟨hwf, hword.trans hused.symm⟩

/-- Settles O5, by evaluation of the decoder on the six words. -/
theorem specWordsDecode : Obligations.SpecWordsDecode := by
  unfold Obligations.SpecWordsDecode
  decide

/-! ### The acceptance and the completion of an illegal word (30_encoding R149) -/

theorem State.hostWrite_cmd_idle {s : State} {addr : BusAddr} (h : target addr = .cmd) (hl : s.latch = none)
    (w : Word) : s.hostWrite addr w = s.accept w := by
  simp only [State.hostWrite, h, State.busy, hl, Option.isSome_none, Bool.false_eq_true, if_false]

/-- Out of reset the engine completes an accepted illegal word with ILLEGAL_CMD. -/
theorem engineTurn_of_illegal {s : State} {w : Word} {e : Illegal} (hl : s.latch = some w) (hr : s.rst = false)
    (hd : decode w = .error e) : engineTurn s = .next (s.raise .illegalCmd) :=
  (engineTurn_of_latched hl hr).trans (runCommand_of_decode_error s hd)

/-- A command that only raises an error after its acceptance changes LASTOP beside the completion. -/
theorem Frame.raise_accept (s : State) (w : Word) (e : ErrCode) :
    Frame e 0 [] { s with lastOp := BitVec.ofNat 8 w.toNat } ((s.accept w).raise e) :=
  Frame.of_complete rfl BitVec.or_zero.symm { SameHost.refl s with } (fun _ => rfl) (fun _ => rfl)
    (fun _ => ⟨rfl, rfl, rfl⟩) (fun _ => rfl) (fun n _ => by cases n <;> rfl) (fun _ _ => rfl) (fun _ _ => rfl)

/-- Settles O8: the host's step accepts the word and the engine's turn raises ILLEGAL_CMD. -/
theorem illegalWordCompletesWithIllegalCmd : Obligations.IllegalWordCompletesWithIllegalCmd := by
  intro s addr w rest hi hr hoff hl hillegal
  obtain ⟨e, hd⟩ : ∃ e, decode w = .error e := by
    cases hd : decode w with
    | error e => exact ⟨e, rfl⟩
    | ok i =>
      obtain ⟨hrsv, hop⟩ := (exists_decode_iff w).mp ⟨i, hd⟩
      exact hillegal.elim (absurd hrsv) (absurd hop)
  refine ⟨_, _, step_write hi hr, ?_, Frame.raise_accept { s with inputs := rest } w .illegalCmd⟩
  rw [State.hostWrite_cmd_idle (s := { s with inputs := .engine :: rest }) (target_cmd hoff) hl]
  calc step (State.accept { s with inputs := .engine :: rest } w)
    _ = engineTurn (State.accept { s with inputs := rest } w) := step_of_inputs_cons (i := .engine) rfl
    _ = .next ((State.accept { s with inputs := rest } w).raise .illegalCmd) := engineTurn_of_illegal rfl hr hd

end Sys2Proof.Machine
end

section
/-! SUPPORT. How a command ends (40_control R183, R184): normally, with at most one channel event, or with an
error code and nothing changed but the results its rule names. -/

namespace Sys2Proof.Machine

/-! ### The two endings -/

/-- The channel bits of INT_STATUS one command may raise: none, or the bit of one channel (46_acknack R381). -/
def ChannelEvents (events : BitVec 5) : Prop := events = 0 ∨ events = 0b01000 ∨ events = 0b10000

theorem channelEvents_intArb (n : Chan) : ChannelEvents (intArb n) := by
  cases n with
  | c0 => exact .inr (.inl rfl)
  | c1 => exact .inr (.inr rfl)

/-- The outcome of a command started in `s` that may write `parts` before it raises an error. -/
inductive Ends (parts : List Part) (s : State) : Host.Outcome State Fault Refusal → Prop
  | normal {t : State} {events : BitVec 5} (completed : Completed .none events s t)
      (single : ChannelEvents events) : Ends parts s (.next t)
  | error {t : State} {e : ErrCode} (frame : Frame e 0 parts s t) : Ends parts s (.next t)

theorem Completed.of_complete {e : ErrCode} {events : BitVec 5} {s u : State} (lastOp : u.lastOp = s.lastOp)
    (intStatus : u.intStatus = s.intStatus ||| events) : Completed e events s (u.complete e) where
  latch := rfl
  err := rfl
  lastOp := lastOp
  intStatus :=
    calc u.intStatus ||| completionBits e
      _ = s.intStatus ||| completionBits e ||| events := by
        rw [intStatus, BitVec.or_assoc, BitVec.or_comm events, ← BitVec.or_assoc]
      _ = s.intStatus ||| (if e = .none then 0b00001 else 0b00011) ||| events := by
        unfold completionBits
        split <;> rfl

/-- A command that raises an error after it wrote results has the frame of those results. -/
theorem Frame.raise_results (s : State) (e : ErrCode) {parts : List Part} {r0 r1 : Word}
    (h0 : .result0 ∉ parts → r0 = s.result0) (h1 : .result1 ∉ parts → r1 = s.result1) :
    Frame e 0 parts s (State.raise { s with result0 := r0, result1 := r1 } e) :=
  Frame.of_complete rfl BitVec.or_zero.symm { SameHost.refl s with } h0 h1 (fun _ => ⟨rfl, rfl, rfl⟩)
    (fun _ => rfl) (fun n _ => by cases n <;> rfl) (fun _ _ => rfl) (fun _ _ => rfl)

section
variable {parts : List Part} {s t u : State}

theorem Ends.done (lastOp : u.lastOp = s.lastOp) (intStatus : u.intStatus = s.intStatus) :
    Ends parts s (.next u.done) :=
  .normal (.of_complete lastOp (intStatus.trans BitVec.or_zero.symm)) (.inl rfl)

theorem Ends.setChan (s : State) (n : Chan) (c : Channel) : Ends parts s (.next (s.setChan n c).done) :=
  .done (State.setChan_lastOp s n c) (State.setChan_intStatus s n c)

/-- A command that moves a channel and may raise its event (46_acknack R381). -/
theorem Ends.setChan_eventIf (lastOp : u.lastOp = s.lastOp) (intStatus : u.intStatus = s.intStatus) (n : Chan)
    (c : Channel) (raised : Bool) : Ends parts s (.next ((u.setChan n c).eventIf n raised).done) := by
  have hlastOp := (State.setChan_lastOp u n c).trans lastOp
  have hintStatus := (State.setChan_intStatus u n c).trans intStatus
  cases raised with
  | false => exact .done hlastOp hintStatus
  | true => exact .normal (.of_complete hlastOp (congrArg (· ||| intArb n) hintStatus)) (channelEvents_intArb n)

theorem Ends.raise (s : State) (e : ErrCode) : Ends parts s (.next (s.raise e)) :=
  .error (Frame.raise_results s e (fun _ => rfl) (fun _ => rfl))

theorem Ends.ite {p : Prop} [Decidable p] (ht : p → Ends parts s (.next t)) (hu : ¬ p → Ends parts s (.next u)) :
    Ends parts s (.next (if p then t else u)) := by
  split
  · next hp => exact ht hp
  · next hp => exact hu hp

/-- A check that raises an error when it fails, before the rest of the command. -/
theorem Ends.guard {p : Prop} [Decidable p] {e : ErrCode} (hu : Ends parts s (.next u)) :
    Ends parts s (.next (if p then s.raise e else u)) :=
  .ite (fun _ => .raise s e) (fun _ => hu)

end

/-! ### Every command -/

/-- The results the rule of a command writes before it raises an error (41_codec R205, R208; 42_crc R244;
45_msgid R343). -/
def errorParts : Instr → List Part
  | .decode _ _ | .payDecode _ _ => [.result1]
  | .crcCheck _ _ _ => [.result0, .result1]
  | .midValidate _ => [.result0]
  | _ => []

theorem execDecode_ends (a k : Nat) (s : State) : Ends [.result1] s (execDecode a k s) := by
  refine .guard ?_
  split
  · exact .error (Frame.raise_results s _ (fun _ => rfl) (by simp))
  · exact .done rfl rfl

theorem execPayDecode_ends (a len : Nat) (s : State) : Ends [.result1] s (execPayDecode a len s) := by
  refine .guard (.guard ?_)
  split
  · exact .error (Frame.raise_results s _ (fun _ => rfl) (by simp))
  · exact .done rfl rfl

theorem execCrcCheck_ends (a b : Nat) (k : StartSel) (s : State) :
    Ends [.result0, .result1] s (execCrcCheck a b k s) :=
  .guard <| .ite (fun _ => .done rfl rfl) fun _ => .error (Frame.raise_results s _ (by simp) (by simp))

theorem execOpenPayload_ends (a b : Nat) (m : BitVec 2) (k : KeySel) (s : State) :
    Ends [] s (execOpenPayload a b m k s) := by
  refine .guard <| .guard <| .guard <|
    .ite (fun _ => .ite (fun _ => .done rfl rfl) fun _ => .raise s _) fun _ => ?_
  split
  · exact .done rfl rfl
  · exact .raise s _

/-- Of its five findings MID_VALIDATE raises an error for the replayed ID alone. -/
theorem execMidValidate_ends (a : Nat) (s : State) : Ends [.result0] s (execMidValidate a s) :=
  .guard <|
    .ite (fun _ => .done rfl rfl) fun _ =>
    .ite (fun _ => .done rfl rfl) fun _ =>
    .ite (fun _ => .done rfl rfl) fun _ =>
    .ite (fun _ => .error (Frame.raise_results s _ (by simp) fun _ => rfl)) fun _ => .done rfl rfl

theorem execArbStart_ends (n : Chan) (s : State) : Ends [] s (execArbStart n s) := by
  refine .guard ?_
  split
  · exact .raise s _
  · exact .guard (.setChan s n _)

theorem execArbRespond_ends (n : Chan) (s : State) : Ends [] s (execArbRespond n s) :=
  .guard <| .guard <| .guard <|
    .setChan_eventIf (s := s) (u := { s with parse := { s.parse with valid := false } }) rfl rfl n _ _

theorem execArbAbort_ends (n : Chan) (s : State) : Ends [] s (execArbAbort n s) :=
  .guard <| .setChan_eventIf rfl rfl n _ true

/-- Every command ends normally with at most one channel event, or raises an error with nothing changed but the
results its rule names. -/
theorem exec_ends (i : Instr) (s : State) : Ends (errorParts i) s (exec i s) := by
  cases i with
  | nop => exact .done rfl rfl
  | encode a b => exact .guard (.done rfl rfl)
  | decode a b => exact execDecode_ends a b s
  | payEncode a b m => exact .guard (.guard (.done rfl rfl))
  | payDecode a b => exact execPayDecode_ends a b s
  | crcCompute a b k => exact .guard (.done rfl rfl)
  | crcCheck a b k => exact execCrcCheck_ends a b k s
  | crcFill a b k => exact .guard (.done rfl rfl)
  | pidInfo => exact .done rfl rfl
  | xteaEnc a b m k => exact .guard <| .guard <| .guard <| .ite (fun _ => .done rfl rfl) fun _ => .done rfl rfl
  | xteaDec a b m k => exact .guard <| .guard <| .guard <| .ite (fun _ => .done rfl rfl) fun _ => .done rfl rfl
  | openPayload a b m k => exact execOpenPayload_ends a b m k s
  | keyRotate => exact .done rfl rfl
  | keyCommit => exact .done rfl rfl
  | midNext a => exact .guard (.done rfl rfl)
  | midValidate a => exact execMidValidate_ends a s
  | ackParse a b k => exact .guard (.guard (.guard (.done rfl rfl)))
  | nackFatal => exact .done rfl rfl
  | arbStart n => exact execArbStart_ends n s
  | arbResend n => exact .guard (.setChan s n _)
  | arbRespond n => exact execArbRespond_ends n s
  | arbAbort n => exact execArbAbort_ends n s

/-- An illegal word only raises ILLEGAL_CMD (30_encoding R149). -/
theorem runCommand_ends (w : Word) (s : State) : ∃ parts, Ends parts s (runCommand w s) := by
  cases hd : decode w with
  | ok i => exact ⟨errorParts i, runCommand_of_decode_ok s hd ▸ exec_ends i s⟩
  | error e => exact ⟨[], runCommand_of_decode_error s hd ▸ .raise s .illegalCmd⟩

end Sys2Proof.Machine
end

section
/-! SUPPORT. The statements about the lifecycle of a command and NOP (40_control). -/

namespace Sys2Proof.Machine

/-! ### Completion (40_control R182 to R184) -/

theorem State.errf_eq (s : State) : s.errf = (s.err != .none) := by
  rw [State.errf]
  cases s.err <;> rfl

theorem SameHost.of_complete {e : ErrCode} {s u : State} (h : SameHost s u) : SameHost s (u.complete e) :=
  { h with }

theorem Ends.exists_completed {parts : List Part} {s t : State} (h : Ends parts s (.next t)) :
    ∃ e events, Completed e events s t ∧ ChannelEvents events := by
  cases h with
  | normal completed single => exact ⟨.none, _, completed, single⟩
  | error frame => exact ⟨_, 0, frame.completed, .inl rfl⟩

/-- The lifecycle of a command, whose ending says what STATUS and INT_STATUS hold, with what it keeps. -/
theorem Ends.completes {parts : List Part} {s : State} {o : Host.Outcome State Fault Refusal}
    (hends : Ends parts s o) (hkeeps : CompletesKeeping s o) :
    ∃ t, o = .next t ∧ ∃ e events, Completed e events s t ∧ SameHost s t ∧ ChannelEvents events ∧
      t.errf = (e != .none) ∧ t.busy = false := by
  obtain ⟨code, u, rfl, hu⟩ := hkeeps
  obtain ⟨e, events, hc, hevents⟩ := hends.exists_completed
  refine ⟨_, rfl, e, events, hc, hu.host.of_complete, hevents, ?_, ?_⟩
  · rw [State.errf_eq, hc.err]
  · rw [State.busy, hc.latch, Option.isSome_none]

/-- Settles O9: each command and each word has one of the two endings and keeps what only the host writes. -/
theorem everyCommandCompletes : Obligations.EveryCommandCompletes := by
  constructor
  · intro i s
    exact (exec_ends i s).completes (exec_keeps i s)
  · intro w s
    obtain ⟨parts, hends⟩ := runCommand_ends w s
    exact hends.completes (runCommand_keeps w s)

/-- Settles O10: the ending with a code other than 0 is the one that raises an error. -/
theorem failingCommandChangesNothingElse : Obligations.FailingCommandChangesNothingElse := by
  intro i s t hexec herr
  have hends : Ends (errorParts i) s (.next t) := hexec ▸ exec_ends i s
  cases hends with
  | normal completed => exact absurd completed.err herr
  | error frame => exact frame.completed.err ▸ frame

/-! ### Acceptance (40_control R180) -/

/-- Settles O7: the write accepts the word of an idle block, and sets WERR while a command is latched. -/
theorem cmdWriteIsAcceptedOnlyWhenIdle : Obligations.CmdWriteIsAcceptedOnlyWhenIdle := by
  intro s addr w rest hi hr hoff
  have hcmd : target addr = .cmd := target_cmd hoff
  have hstep := step_write hi hr
  constructor
  · intro hl
    rw [State.hostWrite_cmd_idle (s := { s with inputs := rest }) hcmd hl] at hstep
    exact hstep
  · intro hl
    rw [State.hostWrite_busy (s := { s with inputs := rest }) hl (.inr hcmd)] at hstep
    exact hstep

/-! ### NOP (40_control R185) -/

/-- The word of every instruction has its opcode, and its used bits say what it decodes to. -/
theorem refEncoding_opcode (i : Instr) : refEncoding i.opcode.toNat i := by
  constructor
  · rw [← fieldOp_encode i]
    exact (fieldOp_toNat (encode i)).symm
  · intro hwf w hused
    exact decode_eq_ok_iff.mpr ⟨hwf, hused.symm⟩

/-- Settles O11: NOP is the bare completion. -/
theorem nopOnlyCompletes : Obligations.NopOnlyCompletes :=
  ⟨refEncoding_opcode .nop, fun s => ⟨s.done, rfl, Frame.done s⟩⟩

end Sys2Proof.Machine
end

section
/-! SUPPORT. The bits of a stream by position, and packing then unpacking a whole stream (41_codec R201 to
R203). -/

namespace Sys2Proof.Machine

section
variable {w : Nat}

/-- Bit `i` of the stream of `k` values is bit `i % w`, from the top, of value `i / w`; past them it is 0. -/
theorem bitStream_map_range_getD (hw : 0 < w) (f : Nat → BitVec w) (k i : Nat) :
    (bitStream ((List.range k).map f)).getD i false = (decide (i < w * k) && (f (i / w)).getMsbD (i % w)) := by
  induction k generalizing f i with
  | zero => simp
  | succ k ih =>
    rw [List.range_succ_eq_map, List.map_cons, List.map_map, bitStream_cons, Nat.mul_succ]
    rcases Nat.lt_or_ge i w with hi | hi
    · have hlen : i < (bitsOf (f 0)).length := by rwa [bitsOf_length]
      rw [List.getD_append _ _ _ _ hlen, List.getD_eq_getElem _ _ hlen, bitsOf_getElem, Nat.div_eq_of_lt hi,
        Nat.mod_eq_of_lt hi, decide_eq_true (by omega), Bool.true_and]
    · rw [List.getD_append_right _ _ _ _ (by rwa [bitsOf_length]), bitsOf_length, ih, Nat.div_eq_sub_div hw hi,
        Nat.mod_eq_sub_mod hi]
      congr 1
      exact decide_eq_decide.mpr (by omega)

theorem take_getD (bits : List Bool) (n i : Nat) :
    (bits.take n).getD i false = (decide (i < n) && bits.getD i false) := by
  rw [List.getD_eq_getElem?_getD, List.getD_eq_getElem?_getD, List.getElem?_take]
  by_cases hi : i < n <;> simp [hi]

theorem drop_getD (bits : List Bool) (n i : Nat) : (bits.drop n).getD i false = bits.getD (n + i) false := by
  rw [List.getD_eq_getElem?_getD, List.getD_eq_getElem?_getD, List.getElem?_drop]

/-- Bit `b` of value `j` of a stream, from the top, is bit `w * j + b` of the stream. -/
theorem chunks_getElem_getMsbD {n : Nat} {bits : List Bool} {j b : Nat} (hj : j < (chunks w n bits).length)
    (hb : b < w) : (chunks w n bits)[j].getMsbD b = bits.getD (w * j + b) false := by
  rw [chunks_getElem, ofBits_getMsbD, decide_eq_true hb, Bool.true_and, drop_getD]

theorem chunks_eq_map_range (n : Nat) (bits : List Bool) :
    chunks w n bits = (List.range n).map fun j => ofBits w (bits.drop (w * j)) :=
  List.ext_getElem (by simp) fun j hj _ => by rw [chunks_getElem, List.getElem_map, List.getElem_range]

/-- Packing a stream into `n` values that hold it all and unpacking them pads it with zero bits. -/
theorem bitStream_chunks (hw : 0 < w) {n : Nat} {bits : List Bool} (hfits : bits.length ≤ w * n) :
    bitStream (chunks w n bits) = bits ++ List.replicate (w * n - bits.length) false := by
  apply List.ext_getElem
  · simp only [bitStream_length, chunks_length, List.length_append, List.length_replicate, Nat.mul_comm n w]
    omega
  · intro i hi hi'
    have hin : i < w * n := by rwa [bitStream_length, chunks_length, Nat.mul_comm] at hi
    have hleft : (bitStream (chunks w n bits)).getD i false = bits.getD i false := by
      rw [chunks_eq_map_range, bitStream_map_range_getD hw, ofBits_getMsbD, decide_eq_true hin,
        decide_eq_true (Nat.mod_lt i hw), Bool.true_and, Bool.true_and, drop_getD, Nat.div_add_mod]
    rw [List.getElem_eq_getD false, hleft, List.getElem_append]
    split
    · next h => exact List.getD_eq_getElem _ _ h
    · next h => rw [List.getElem_replicate, List.getD_eq_default _ _ (Nat.le_of_not_lt h)]

/-- The first `m` values of a stream, then those of the rest. -/
theorem chunks_add (m n : Nat) (bits : List Bool) :
    chunks w (m + n) bits = chunks w m bits ++ chunks w n (bits.drop (w * m)) := by
  simp only [chunks_eq_map_range, List.range_add, List.map_append, List.map_map, List.drop_drop]
  congr 2
  funext j
  simp [Nat.mul_add]

/-- Zero bits pack to the value 0. -/
theorem chunks_replicate_false (n k : Nat) :
    chunks w n (List.replicate k false) = List.replicate n 0#w := by
  have hzero (l : Nat) : ofBits w (List.replicate l false) = 0#w := by
    apply BitVec.eq_of_getMsbD_eq
    intro i _
    rw [ofBits_getMsbD, BitVec.getMsbD_zero, List.getD_eq_getElem?_getD, List.getElem?_getD_replicate_default_eq,
      Bool.and_false]
  simp only [chunks_eq_map_range, List.drop_replicate, hzero, List.map_const', List.length_range]

/-- Packing the stream of some values, padded with zero bits, gives these values and then zeros. -/
theorem chunks_bitStream_replicate (vs : List (BitVec w)) (n k : Nat) :
    chunks w (vs.length + n) (bitStream vs ++ List.replicate k false) = vs ++ List.replicate n 0#w := by
  have hlen : (bitStream vs).length = w * vs.length := by rw [bitStream_length, Nat.mul_comm]
  rw [chunks_add, chunks_bitStream, List.drop_left' hlen, chunks_replicate_false]

end

end Sys2Proof.Machine
end

section
/-! SUPPORT. Wire bytes: the first byte outside the alphabet, and the symbols of valid bytes (41_codec R200,
R203, R205). -/

namespace Sys2Proof.Machine

theorem decTable_eq_none {b : Byte} : decTable b = none ↔ ∀ v, Config.encTable v ≠ b := by
  simp only [Option.eq_none_iff_forall_ne_some, ne_eq, decTable_eq_some]

/-- The reported index is that of the first byte outside the alphabet. -/
theorem firstInvalid_encRange {s : State} {e k j : Nat} (hj : j < k)
    (hbad : ∀ v, Config.encTable v ≠ s.readByte (0xC00 + e + j))
    (hbefore : ∀ j' < j, ∃ v, Config.encTable v = s.readByte (0xC00 + e + j')) :
    firstInvalid (s.encRange e k) = some j := by
  rw [firstInvalid, List.findIdx?_eq_some_iff_getElem]
  refine ⟨by rwa [State.encRange_length], ?_, fun j' hj' => ?_⟩
  · rw [State.encRange_getElem, Option.isNone_iff_eq_none]
    exact decTable_eq_none.mpr hbad
  · obtain ⟨v, hv⟩ := hbefore j' hj'
    rw [State.encRange_getElem, Option.isNone_iff_eq_none, decTable_eq_none]
    exact fun hnone => hnone v hv

theorem firstInvalid_map_encTable (vs : List Symbol) : firstInvalid (vs.map Config.encTable) = none := by
  simp [firstInvalid, decTable_encTable]

theorem symbolsOf_map_encTable (vs : List Symbol) : symbolsOf (vs.map Config.encTable) = vs := by
  rw [symbolsOf, List.map_map]
  exact List.map_id'' (fun v => by rw [Function.comp_apply, decTable_encTable, Option.getD_some]) vs

/-- Wire bytes that are the codes of `v 0`, `v 1` and so on. -/
theorem encRange_eq_map_encTable {s : State} {e k : Nat} {v : Nat → Symbol}
    (hv : ∀ j < k, s.readByte (0xC00 + e + j) = Config.encTable (v j)) :
    s.encRange e k = ((List.range k).map v).map Config.encTable := by
  rw [List.map_map]
  exact List.map_congr_left fun j hj => hv j (List.mem_range.mp hj)

/-- The bits of the raw bytes by position (41_codec R201). -/
theorem bitStream_rawRange_getD (s : State) (a n i : Nat) :
    (bitStream (s.rawRange a n)).getD i false =
      (decide (i < 8 * n) && (s.readByte (0x800 + a + i / 8)).getMsbD (i % 8)) :=
  bitStream_map_range_getD (by decide) (fun i => s.readByte (0x800 + a + i)) n i

end Sys2Proof.Machine
end

section
/-! SUPPORT. What each codec command does, by the outcome of its checks: its next state as an equation. -/

namespace Sys2Proof.Machine

/-! ### The normal ending of a codec command -/

/-- The end of a codec command that stores the bytes `vs` and reports `r` in RESULT0 (41_codec R204 to R208). -/
def State.codecDone (s : State) (base : Nat) (vs : List Byte) (r : Word) : State :=
  (((s.writeBytes base vs).setResult0 r).setResult1 0).done

section
variable (s : State) (base : Nat) (vs : List Byte) (r : Word)

@[simp] theorem State.codecDone_err : (s.codecDone base vs r).err = .none := rfl
@[simp] theorem State.codecDone_arg0 : (s.codecDone base vs r).arg0 = s.arg0 := rfl
@[simp] theorem State.codecDone_result0 : (s.codecDone base vs r).result0 = r := rfl
@[simp] theorem State.codecDone_result1 : (s.codecDone base vs r).result1 = 0 := rfl

/-- Only the two results and the bytes stored differ. -/
theorem Frame.codecDone {n : Nat} (hn : vs.length = n) :
    Frame .none 0 [.result0, .result1, .bytes base n] s (s.codecDone base vs r) :=
  Frame.of_complete rfl BitVec.or_zero.symm { SameHost.refl s with } (by simp) (by simp) (fun _ => ⟨rfl, rfl, rfl⟩)
    (fun _ => rfl) (fun c _ => by cases c <;> rfl) (fun _ _ => rfl)
    (fun _ hx => s.readByte_writeBytes_outside (hn ▸ hx base n (by simp)))

variable {vs}

theorem State.codecDone_readByte {i : Nat} (hi : i < vs.length) :
    (s.codecDone base vs r).readByte (base + i) = vs[i] :=
  s.readByte_writeBytes_inside hi

/-- The range written reads back as the bytes stored, in either buffer. -/
theorem State.codecDone_map_readByte {k : Nat} (hk : vs.length = k) :
    ((List.range k).map fun i => (s.codecDone base vs r).readByte (base + i)) = vs :=
  List.ext_getElem (by rw [List.length_map, List.length_range, hk]) fun i _ hi => by
    rw [List.getElem_map, List.getElem_range, s.codecDone_readByte base r hi]

theorem State.codecDone_encRange (d : Nat) {k : Nat} (hk : vs.length = k) :
    (s.codecDone (0xC00 + d) vs r).encRange d k = vs := s.codecDone_map_readByte _ r hk

theorem State.codecDone_rawRange (a : Nat) {k : Nat} (hk : vs.length = k) :
    (s.codecDone (0x800 + a) vs r).rawRange a k = vs := s.codecDone_map_readByte _ r hk

/-- Symbol `j` written holds the bits of the stream from bit `6 * j` on (41_codec R202). -/
theorem State.codecDone_wireBytes {n j : Nat} (bits : List Bool) (hj : j < n) :
    ∃ v : Symbol, (s.codecDone base (wireBytes n bits) r).readByte (base + j) = Config.encTable v ∧
      ∀ b < 6, v.getMsbD b = bits.getD (6 * j + b) false := by
  have hlen : j < (chunks 6 n bits).length := by rwa [chunks_length]
  refine ⟨(chunks 6 n bits)[j], ?_, fun b hb => chunks_getElem_getMsbD hlen hb⟩
  rw [s.codecDone_readByte base r (by rwa [wireBytes_length])]
  exact List.getElem_map _

/-- Byte `i` written holds the bits of the stream from bit `8 * i` on (41_codec R203). -/
theorem State.codecDone_chunks {n i b : Nat} (bits : List Bool) (hi : i < n) (hb : b < 8) :
    ((s.codecDone base (chunks 8 n bits) r).readByte (base + i)).getMsbD b = bits.getD (8 * i + b) false := by
  have hlen : i < (chunks 8 n bits).length := by rwa [chunks_length]
  rw [s.codecDone_readByte base r hlen, chunks_getElem_getMsbD hlen hb]

end

/-! ### The checks -/

theorem not_rawFits_iff {a n : Nat} : ¬ rawFits a n ↔ 256 < a + n := Nat.not_le

/-- The ENC_BUF offset is ARG0[7:0]. -/
theorem not_encFits_iff {s : State} {n : Nat} : ¬ encFits s.encOffset n ↔ 128 < s.arg0.toNat % 256 + n :=
  Nat.not_le

/-! ### ENCODE (41_codec R204) -/

section
variable {s : State} {a n : Nat}

theorem exec_encode_badParam
    (h : n = 0 ∨ 256 < a + (n + 7) / 8 ∨ 128 < s.arg0.toNat % 256 + (n + 5) / 6) :
    exec (.encode a n) s = .next (s.raise .badParam) :=
  congrArg Host.Outcome.next (if_pos (by rwa [not_rawFits_iff, not_encFits_iff]))

theorem exec_encode_done
    (h : ¬ (n = 0 ∨ 256 < a + (n + 7) / 8 ∨ 128 < s.arg0.toNat % 256 + (n + 5) / 6)) :
    exec (.encode a n) s = .next (s.codecDone (0xC00 + s.arg0.toNat % 256)
      (wireBytes ((n + 5) / 6) ((bitStream (s.rawRange a ((n + 7) / 8))).take n)) (BitVec.ofNat 32 ((n + 5) / 6))) :=
  congrArg Host.Outcome.next (if_neg (by rwa [not_rawFits_iff, not_encFits_iff]))

end

/-! ### DECODE (41_codec R205) -/

section
variable {s : State} {a k : Nat}

theorem exec_decode_badParam
    (h : k = 0 ∨ 128 < s.arg0.toNat % 256 + k ∨ 256 < a + (6 * k + 7) / 8) :
    exec (.decode a k) s = .next (s.raise .badParam) :=
  congrArg Host.Outcome.next (if_pos (by rwa [not_rawFits_iff, not_encFits_iff]))

theorem exec_decode_badEncoding {j : Nat}
    (h : ¬ (k = 0 ∨ 128 < s.arg0.toNat % 256 + k ∨ 256 < a + (6 * k + 7) / 8))
    (hj : firstInvalid (s.encRange (s.arg0.toNat % 256) k) = some j) :
    exec (.decode a k) s = .next ((s.setResult1 (BitVec.ofNat 32 j)).raise .badEncoding) := by
  refine congrArg Host.Outcome.next ((if_neg (by rwa [not_rawFits_iff, not_encFits_iff])).trans ?_)
  rw [show firstInvalid (s.encRange s.encOffset k) = some j from hj]

theorem exec_decode_done {vs : List Symbol}
    (h : ¬ (k = 0 ∨ 128 < s.arg0.toNat % 256 + k ∨ 256 < a + (6 * k + 7) / 8))
    (hvs : s.encRange (s.arg0.toNat % 256) k = vs.map Config.encTable) :
    exec (.decode a k) s = .next (s.codecDone (0x800 + a) (chunks 8 ((6 * k + 7) / 8) (bitStream vs))
      (BitVec.ofNat 32 ((6 * k + 7) / 8))) := by
  refine congrArg Host.Outcome.next ((if_neg (by rwa [not_rawFits_iff, not_encFits_iff])).trans ?_)
  rw [show s.encRange s.encOffset k = vs.map Config.encTable from hvs, firstInvalid_map_encTable,
    symbolsOf_map_encTable]
  rfl

end

/-! ### The payload commands (41_codec R206 to R208) -/

/-- The legal lengths and ranges of the payload commands. -/
abbrev State.payLegal (s : State) (a len : Nat) : Prop :=
  len ∈ [8, 16, 24, 32] ∧ a + len ≤ 256 ∧ s.arg0.toNat % 256 + (8 * len + 2 + 5) / 6 ≤ 128

/-- The two checks of the payload commands are one: the operands are legal. -/
theorem payLegal_checks {s : State} {a len : Nat} {x y : State} :
    (if len ∉ payLengths then x else if ¬ rawFits a len ∨ ¬ encFits s.encOffset (payLen len) then x else y) =
      if s.payLegal a len then y else x := by
  have hranges : ¬ (¬ rawFits a len ∨ ¬ encFits s.encOffset (payLen len)) ↔
      a + len ≤ 256 ∧ s.arg0.toNat % 256 + (8 * len + 2 + 5) / 6 ≤ 128 := by
    rw [not_or, not_not, not_not]
    rfl
  by_cases hlen : len ∈ payLengths
  · rw [if_neg (not_not.mpr hlen), ← ite_not]
    exact if_congr (hranges.trans (and_iff_right hlen).symm) rfl rfl
  · rw [if_pos hlen, if_neg fun h => hlen h.left]

section
variable {s : State} {a len : Nat}

theorem exec_payEncode_badParam (m : BitVec 2) (h : ¬ s.payLegal a len) :
    exec (.payEncode a len m) s = .next (s.raise .badParam) :=
  congrArg Host.Outcome.next (payLegal_checks.trans (if_neg h))

theorem exec_payEncode_done (m : BitVec 2) (h : s.payLegal a len) :
    exec (.payEncode a len m) s = .next (s.codecDone (0xC00 + s.arg0.toNat % 256)
      (wireBytes ((8 * len + 2 + 5) / 6) (bitsOf m ++ bitStream (s.rawRange a len)))
      (BitVec.ofNat 32 ((8 * len + 2 + 5) / 6))) :=
  congrArg Host.Outcome.next (payLegal_checks.trans (if_pos h))

theorem exec_payDecode_badParam (h : ¬ s.payLegal a len) :
    exec (.payDecode a len) s = .next (s.raise .badParam) :=
  congrArg Host.Outcome.next (payLegal_checks.trans (if_neg h))

theorem exec_payDecode_badEncoding {j : Nat} (h : s.payLegal a len)
    (hj : firstInvalid (s.encRange (s.arg0.toNat % 256) ((8 * len + 2 + 5) / 6)) = some j) :
    exec (.payDecode a len) s = .next ((s.setResult1 (BitVec.ofNat 32 j)).raise .badEncoding) := by
  refine congrArg Host.Outcome.next ((payLegal_checks.trans (if_pos h)).trans ?_)
  rw [show firstInvalid (s.encRange s.encOffset (payLen len)) = some j from hj]

theorem exec_payDecode_done {vs : List Symbol} (h : s.payLegal a len)
    (hvs : s.encRange (s.arg0.toNat % 256) ((8 * len + 2 + 5) / 6) = vs.map Config.encTable) :
    exec (.payDecode a len) s = .next (s.codecDone (0x800 + a) (chunks 8 len ((bitStream vs).drop 2))
      ((ofBits 2 (bitStream vs)).zeroExtend 32)) := by
  refine congrArg Host.Outcome.next ((payLegal_checks.trans (if_pos h)).trans ?_)
  rw [show s.encRange s.encOffset (payLen len) = vs.map Config.encTable from hvs, firstInvalid_map_encTable,
    symbolsOf_map_encTable]
  rfl

end

end Sys2Proof.Machine
end

section
/-! SUPPORT. The statements about the codec (41_codec). -/

namespace Sys2Proof.Machine

/-! ### The commands bit by bit -/

/-- Settles O13: bit `6 * j + b` of the stream is that bit of the raw bytes when it is below `n`, and the pad's
0 otherwise. -/
theorem encodePacksRawBitsIntoSymbols : Obligations.EncodePacksRawBitsIntoSymbols := by
  intro s a n d ns
  refine ⟨refEncoding_opcode (.encode a n), fun hbad => ?_, fun hok => ?_⟩
  · exact ⟨_, exec_encode_badParam hbad, Frame.raise s _⟩
  · refine ⟨_, exec_encode_done hok, Frame.codecDone s _ _ _ (wireBytes_length ..), State.codecDone_result0 ..,
      State.codecDone_result1 .., fun j hj => ?_⟩
    obtain ⟨v, hread, hbits⟩ := s.codecDone_wireBytes (0xC00 + d) (BitVec.ofNat 32 ns)
      ((bitStream (s.rawRange a ((n + 7) / 8))).take n) hj
    refine ⟨v, hread, fun b hb => ?_⟩
    rw [hbits b hb, take_getD, bitStream_rawRange_getD, ← Bool.and_assoc, ← Bool.decide_and]
    congr 2
    exact propext ⟨And.left, fun h => ⟨h, by omega⟩⟩

/-- The state of a command that found a bad wire byte: RESULT1 alone reports it. -/
theorem Frame.badEncoding (s : State) (j : Nat) :
    Frame .badEncoding 0 [.result1] s ((s.setResult1 (BitVec.ofNat 32 j)).raise .badEncoding) :=
  Frame.raise_results s .badEncoding (fun _ => rfl) (by simp)

/-- Settles O14: bit `8 * i + b` of the written bytes is that bit of the symbols' stream. -/
theorem decodeUnpacksSymbolsIntoRawBytes : Obligations.DecodeUnpacksSymbolsIntoRawBytes := by
  intro s a k e nb
  refine ⟨refEncoding_opcode (.decode a k), fun hbad => ?_,
    fun hok => ⟨fun j hj hinvalid hbefore => ?_, fun v hv => ?_⟩⟩
  · exact ⟨_, exec_decode_badParam hbad, Frame.raise s _⟩
  · exact ⟨_, exec_decode_badEncoding hok (firstInvalid_encRange hj hinvalid hbefore), Frame.badEncoding s j, rfl⟩
  · refine ⟨_, exec_decode_done hok (encRange_eq_map_encTable hv), Frame.codecDone s _ _ _ (chunks_length ..),
      State.codecDone_result0 .., State.codecDone_result1 .., fun i hi b hb => ?_⟩
    rw [s.codecDone_chunks _ _ _ hi hb, bitStream_map_range_getD (by decide)]

/-- Settles O15: the first two bits of the stream are the method's, and the others are those of the payload
two places before. -/
theorem payEncodePacksMethodAndPayload : Obligations.PayEncodePacksMethodAndPayload := by
  intro s a len m d ns legal
  refine ⟨refEncoding_opcode (.payEncode a len m), fun hbad => ?_, fun hok => ?_⟩
  · exact ⟨_, exec_payEncode_badParam m hbad, Frame.raise s _⟩
  · refine ⟨_, exec_payEncode_done m hok, Frame.codecDone s _ _ _ (wireBytes_length ..), State.codecDone_result0 ..,
      State.codecDone_result1 .., fun j hj => ?_⟩
    obtain ⟨v, hread, hbits⟩ := s.codecDone_wireBytes (0xC00 + d) (BitVec.ofNat 32 ns)
      (bitsOf m ++ bitStream (s.rawRange a len)) hj
    refine ⟨v, hread, fun b hb => ?_⟩
    rw [hbits b hb]
    split
    · next h =>
      have hlen : 6 * j + b < (bitsOf m).length := by rwa [bitsOf_length]
      rw [List.getD_append _ _ _ _ hlen, List.getD_eq_getElem _ _ hlen, bitsOf_getElem]
    · next h =>
      rw [List.getD_append_right _ _ _ _ (by rw [bitsOf_length]; omega), bitsOf_length, bitStream_rawRange_getD]

/-- The method code is the two upper bits of the first symbol (41_codec R206). -/
theorem ofBits_two_symbol (v : Symbol) (rest : List Bool) :
    (ofBits 2 (bitsOf v ++ rest)).zeroExtend 32 = BitVec.ofNat 32 (v.toNat / 16) := by
  have hcode : ofBits 2 (bitsOf v ++ rest) = v.extractLsb' 4 2 := by
    apply BitVec.eq_of_getMsbD_eq
    intro i hi
    have hlen : i < (bitsOf v).length := by rw [bitsOf_length]; omega
    rw [ofBits_getMsbD, List.getD_append _ _ _ _ hlen, List.getD_eq_getElem _ _ hlen, bitsOf_getElem,
      BitVec.getMsbD_extractLsb', decide_eq_true (by omega : 4 + 2 - i ≤ 6), Bool.true_and]
    congr 2
    omega
  have hv := v.isLt
  apply BitVec.eq_of_toNat_eq
  rw [toNat_zeroExtend_word (by decide), hcode, BitVec.extractLsb'_toNat, Nat.shiftRight_eq_div_pow,
    BitVec.toNat_ofNat]
  omega

/-- Settles O16: the payload's bits are those of the symbols' stream from bit 2 on. -/
theorem payDecodeUnpacksMethodAndPayload : Obligations.PayDecodeUnpacksMethodAndPayload := by
  intro s a len e ns legal
  refine ⟨refEncoding_opcode (.payDecode a len), fun hbad => ?_,
    fun hok => ⟨fun j hj hinvalid hbefore => ?_, fun v hv => ?_⟩⟩
  · exact ⟨_, exec_payDecode_badParam hbad, Frame.raise s _⟩
  · exact ⟨_, exec_payDecode_badEncoding hok (firstInvalid_encRange hj hinvalid hbefore), Frame.badEncoding s j,
      rfl⟩
  · have hfirst : (List.range ns).map v = v 0 :: (List.range (ns - 1)).map (v ∘ Nat.succ) := by
      rw [show ns = ns - 1 + 1 by omega, List.range_succ_eq_map, List.map_cons, List.map_map]
      rfl
    refine ⟨_, exec_payDecode_done hok (encRange_eq_map_encTable hv), Frame.codecDone s _ _ _ (chunks_length ..),
      ?_, State.codecDone_result1 .., fun i hi b hb => ?_⟩
    · rw [State.codecDone_result0, hfirst, bitStream_cons, ofBits_two_symbol]
    · rw [s.codecDone_chunks _ _ _ hi hb, drop_getD, bitStream_map_range_getD (by decide), ← Nat.add_assoc,
        decide_eq_true (by omega), Bool.true_and]

/-! ### Round trips (41_codec R209) -/

theorem State.readByte_of_rawRange {s : State} {a n i : Nat} {vs : List Byte} (h : s.rawRange a n = vs)
    (hi : i < vs.length) : s.readByte (0x800 + a + i) = vs[i] := by
  subst h
  exact (s.rawRange_getElem a n i hi).symm

/-- The payload follows the two method bits in the stream packed, so PAY_DECODE finds both. -/
theorem payDecode_payEncode {s : State} {a a' len : Nat} (m : BitVec 2) (hs : s.payLegal a len)
    (ha' : a' + len ≤ 256) :
    ∃ t u, exec (.payEncode a len m) s = .next t ∧ exec (.payDecode a' len) t = .next u ∧ u.err = .none ∧
      u.result0 = m.zeroExtend 32 ∧ u.rawRange a' len = s.rawRange a len := by
  obtain ⟨hlen, ha, hd⟩ := hs
  have hpadded : bitStream (chunks 6 ((8 * len + 2 + 5) / 6) (bitsOf m ++ bitStream (s.rawRange a len))) = _ :=
    bitStream_chunks (by decide) (by
      rw [List.length_append, bitsOf_length, bitStream_length, State.rawRange_length]
      omega)
  have hpayload := chunks_bitStream (s.rawRange a len)
  rw [State.rawRange_length] at hpayload
  refine ⟨_, _, exec_payEncode_done m ⟨hlen, ha, hd⟩,
    exec_payDecode_done ⟨hlen, ha', hd⟩ (State.codecDone_encRange _ _ _ (wireBytes_length ..)),
    State.codecDone_err .., ?_, ?_⟩
  · rw [State.codecDone_result0, hpadded, List.append_assoc, ofBits_bitsOf]
  · rw [State.codecDone_rawRange _ _ _ (chunks_length ..), hpadded, List.append_assoc,
      List.drop_left' (bitsOf_length m), hpayload]

/-- The symbols of `q` bytes unpack to these bytes, and to zeros for the whole bytes the pad fills. -/
theorem decode_encode {s : State} {a a' q ns nb : Nat} (hns : ns = (8 * q + 5) / 6) (hnb : nb = (6 * ns + 7) / 8)
    (hq : 0 < q) (ha : a + q ≤ 256) (hd : s.arg0.toNat % 256 + ns ≤ 128) (ha' : a' + nb ≤ 256) :
    ∃ t u, exec (.encode a (8 * q)) s = .next t ∧ exec (.decode a' ns) t = .next u ∧ u.err = .none ∧
      u.result0 = BitVec.ofNat 32 nb ∧ u.rawRange a' nb = s.rawRange a q ++ List.replicate (nb - q) 0#8 := by
  have hbytes : (8 * q + 7) / 8 = q := by omega
  have hbits : (bitStream (s.rawRange a q)).length = 8 * q := by
    rw [bitStream_length, State.rawRange_length, Nat.mul_comm]
  have hencode := exec_encode_done (s := s) (a := a) (n := 8 * q) (by omega)
  rw [hbytes, List.take_of_length_le hbits.le, ← hns] at hencode
  have hround := chunks_bitStream_replicate (s.rawRange a q) (nb - q) (6 * ns - 8 * q)
  rw [State.rawRange_length, Nat.add_sub_cancel' (by omega)] at hround
  refine ⟨_, _, hencode, exec_decode_done (by rw [State.codecDone_arg0]; omega)
    (State.codecDone_encRange _ _ _ (wireBytes_length ..)),
    State.codecDone_err .., ?_, ?_⟩
  · rw [State.codecDone_result0, hnb]
  · rw [hnb, State.codecDone_rawRange _ _ _ (chunks_length ..), ← hnb, bitStream_chunks (by decide) (by omega),
      hbits, hround]

/-- The symbols of `q` bytes hold `q` bytes when 24 divides the number of bits, and one more otherwise. -/
theorem symbolBytes_eq (q : Nat) : (6 * ((8 * q + 5) / 6) + 7) / 8 = if 8 * q % 24 = 0 then q else q + 1 := by
  have hmod : q % 3 = 0 ∨ q % 3 = 1 ∨ q % 3 = 2 := by omega
  rcases hmod with h | h | h <;> split <;> omega

/-- Settles O17: for `n = 8 * q` the symbols hold `q` whole bytes, and one more of pad bits unless 24 divides
`n`. -/
theorem codecRoundTrips : Obligations.CodecRoundTrips := by
  constructor
  · intro s a a' len m hlen ha ha' hd
    obtain ⟨t, u, hencode, hdecode, herr, hmethod, hbytes⟩ := payDecode_payEncode m ⟨hlen, ha, hd⟩ ha'
    refine ⟨t, u, hencode, hdecode, herr, hmethod, fun i hi => ?_⟩
    have hin : i < (s.rawRange a len).length := by rwa [State.rawRange_length]
    exact (State.readByte_of_rawRange hbytes hin).trans (s.rawRange_getElem a len i hin)
  · intro s a a' n hdvd hpos _ ha hd ha'
    obtain ⟨q, rfl⟩ : 8 ∣ n := Nat.dvd_of_mod_eq_zero hdvd
    rw [Nat.mul_div_cancel_left q (by decide)] at ha ⊢
    obtain ⟨t, u, hencode, hdecode, herr, hcount, hbytes⟩ := decode_encode rfl rfl (by omega) ha hd ha'
    refine ⟨t, u, hencode, hdecode, herr, fun i hi => ?_, fun h24 => ?_, fun h24 => ?_⟩
    · have hin : i < (s.rawRange a q).length := by rwa [State.rawRange_length]
      rw [State.readByte_of_rawRange hbytes (by rw [List.length_append]; omega), List.getElem_append_left hin]
      exact s.rawRange_getElem a q i hin
    · rw [hcount, symbolBytes_eq, if_pos h24]
    · rw [symbolBytes_eq, if_neg h24] at hcount hbytes
      rw [Nat.add_sub_cancel_left] at hbytes
      refine ⟨hcount, ?_⟩
      rw [State.readByte_of_rawRange hbytes (by simp)]
      simp

end Sys2Proof.Machine
end

section
/-! SUPPORT. The CRC function (42_crc R240, R241): each bit of it, its arithmetic on natural numbers, that it
continues from one block to the next, and that it sees a single flipped bit. -/

namespace Sys2Proof.Machine

/-! ### The mask of a CRC -/

section
variable {n : Nat} (hn : n ≤ 16)
include hn

theorem and_crcMask_toNat (x : BitVec 16) : (x &&& crcMask n).toNat = x.toNat % 2 ^ n := by
  have hpow : 2 ^ n ≤ 2 ^ 16 := Nat.pow_le_pow_right (by decide) hn
  have hmask : (2 ^ n - 1) % 2 ^ 16 = 2 ^ n - 1 := Nat.mod_eq_of_lt (by omega)
  rw [BitVec.toNat_and, crcMask, BitVec.toNat_ofNat, hmask, Nat.and_two_pow_sub_one_eq_mod]

theorem getLsbD_and_crcMask (x : BitVec 16) (i : Nat) :
    (x &&& crcMask n).getLsbD i = (decide (i < n) && x.getLsbD i) := by
  rw [← BitVec.testBit_toNat, and_crcMask_toNat hn, Nat.testBit_mod_two_pow, BitVec.testBit_toNat]

end

/-! ### One data bit -/

/-- The bit that leaves the register, against the data bit: the polynomial is added when they differ. -/
def crcFeedback (n : Nat) (c : BitVec 16) (bit : Bool) : Bool := c.getLsbD (n - 1) ^^ bit

theorem crcBit_eq_ite (n : Nat) (poly c : BitVec 16) (bit : Bool) :
    crcBit n poly c bit =
      if crcFeedback n c bit then ((c <<< 1) &&& crcMask n) ^^^ (poly &&& crcMask n) else (c <<< 1) &&& crcMask n :=
  rfl

/-- Bit `i` of the register after one data bit: the bit below it, and the polynomial's on feedback. -/
theorem getLsbD_crcBit {n : Nat} (hn : n ≤ 16) (poly c : BitVec 16) (bit : Bool) (i : Nat) :
    (crcBit n poly c bit).getLsbD i =
      (decide (i < n) && ((decide (0 < i) && c.getLsbD (i - 1)) ^^ (crcFeedback n c bit && poly.getLsbD i))) := by
  have hshift : ((c <<< 1) &&& crcMask n).getLsbD i = (decide (i < n) && (decide (0 < i) && c.getLsbD (i - 1))) := by
    rw [getLsbD_and_crcMask hn, BitVec.getLsbD_shiftLeft]
    by_cases hi : i < n
    · simp [hi, show i < 16 by omega, Nat.pos_iff_ne_zero]
    · simp [hi]
  rw [crcBit_eq_ite]
  split
  · next hf =>
    rw [BitVec.getLsbD_xor, hshift, getLsbD_and_crcMask hn, hf, ← Bool.and_xor_distrib_left, Bool.true_and]
  · next hf => rw [hshift, Bool.eq_false_of_not_eq_true hf, Bool.false_and, Bool.xor_false]

/-- One data bit as the rule's arithmetic (42_crc R240). -/
theorem crcBit_toNat {n : Nat} (hn : n ≤ 16) (poly c : BitVec 16) (bit : Bool) :
    (crcBit n poly c bit).toNat = refCrcBit n poly.toNat c.toNat bit := by
  have htop : crcFeedback n c bit = true ↔ c.toNat / 2 ^ (n - 1) % 2 = if bit then 0 else 1 := by
    rw [crcFeedback, ← BitVec.testBit_toNat, Nat.testBit_eq_decide_div_mod_eq]
    cases bit <;> simp
  have hshift : ((c <<< 1) &&& crcMask n).toNat = 2 * c.toNat % 2 ^ n := by
    rw [and_crcMask_toNat hn, BitVec.toNat_shiftLeft, Nat.shiftLeft_eq, Nat.pow_one, Nat.mul_comm,
      Nat.mod_mod_of_dvd _ (Nat.pow_dvd_pow 2 hn)]
  rw [crcBit_eq_ite, refCrcBit, ← hshift, ← and_crcMask_toNat hn poly, ← BitVec.toNat_xor, apply_ite BitVec.toNat]
  exact if_congr htop rfl rfl

/-! ### A stream of data bits -/

/-- The register holds `n` bits. -/
def CrcMasked (n : Nat) (c : BitVec 16) : Prop := c &&& crcMask n = c

theorem crcMasked_and (n : Nat) (c : BitVec 16) : CrcMasked n (c &&& crcMask n) := by
  rw [CrcMasked, BitVec.and_assoc, BitVec.and_self]

theorem crcMasked_crcBit {n : Nat} (hn : n ≤ 16) (poly c : BitVec 16) (bit : Bool) :
    CrcMasked n (crcBit n poly c bit) :=
  BitVec.eq_of_getLsbD_eq fun i _ => by
    rw [getLsbD_and_crcMask hn, getLsbD_crcBit hn, ← Bool.and_assoc, Bool.and_self]

theorem CrcMasked.foldl {n : Nat} (hn : n ≤ 16) (poly : BitVec 16) (bits : List Bool) {c : BitVec 16}
    (hc : CrcMasked n c) : CrcMasked n (bits.foldl (crcBit n poly) c) := by
  induction bits generalizing c with
  | nil => exact hc
  | cons bit bits ih => exact ih (crcMasked_crcBit hn poly c bit)

theorem crcMasked_crcOf {n : Nat} (hn : n ≤ 16) (bytes : List Byte) (start poly : BitVec 16) :
    CrcMasked n (crcOf bytes start n poly) :=
  (crcMasked_and n start).foldl hn poly (bitStream bytes)

theorem CrcMasked.toNat_lt {n : Nat} (hn : n ≤ 16) {c : BitVec 16} (hc : CrcMasked n c) : c.toNat < 2 ^ n := by
  rw [← hc, and_crcMask_toNat hn]
  exact Nat.mod_lt _ (Nat.two_pow_pos n)

theorem crcOf_toNat {n : Nat} (hn : n ≤ 16) (bytes : List Byte) (start poly : BitVec 16) :
    (crcOf bytes start n poly).toNat = refCrc n poly.toNat start.toNat bytes := by
  have hbits (v : Byte) : bitsOf v = [7, 6, 5, 4, 3, 2, 1, 0].map v.getLsbD := rfl
  have hbyte (c : BitVec 16) (v : Byte) :
      [7, 6, 5, 4, 3, 2, 1, 0].foldl (fun c i => refCrcBit n poly.toNat c (v.getLsbD i)) c.toNat =
        ((bitsOf v).foldl (crcBit n poly) c).toNat := by
    rw [hbits, List.foldl_map]
    exact List.foldl_hom _ fun c i => (crcBit_toNat hn poly c (v.getLsbD i)).symm
  rw [crcOf, bitStream, List.foldl_flatMap, refCrc, ← and_crcMask_toNat hn]
  exact (List.foldl_hom _ hbyte).symm

/-- The CRC of two blocks is that of the second, started from that of the first (42_crc R241). -/
theorem crcOf_append {n : Nat} (hn : n ≤ 16) (xs ys : List Byte) (start poly : BitVec 16) :
    crcOf (xs ++ ys) start n poly = crcOf ys (crcOf xs start n poly) n poly := by
  have hmasked : crcOf xs start n poly &&& crcMask n = crcOf xs start n poly := crcMasked_crcOf hn xs start poly
  rw [crcOf, bitStream, List.flatMap_append, List.foldl_append]
  conv_rhs => rw [crcOf, hmasked]
  rfl

/-! ### A single flipped bit (42_crc R244) -/

section
variable {n : Nat} (hn : n ≤ 16) {poly : BitVec 16} (hpoly : poly.getLsbD 0 = true)
include hn hpoly

/-- Under a polynomial of constant term 1 the feedback enters bit 0, into which nothing else is shifted. -/
theorem getLsbD_zero_crcBit (hpos : 0 < n) (c : BitVec 16) (bit : Bool) :
    (crcBit n poly c bit).getLsbD 0 = crcFeedback n c bit := by
  rw [getLsbD_crcBit hn, hpoly]
  simpa using fun _ => hpos

theorem crcFeedback_eq_of_crcBit_eq (hpos : 0 < n) {c c' : BitVec 16} {bit bit' : Bool}
    (h : crcBit n poly c bit = crcBit n poly c' bit') : crcFeedback n c bit = crcFeedback n c' bit' := by
  rw [← getLsbD_zero_crcBit hn hpoly hpos, h, getLsbD_zero_crcBit hn hpoly hpos]

/-- One data bit maps different registers to different registers: the feedback is the same, so the top bits
are, and so are the bits shifted. -/
theorem crcBit_injective (hpos : 0 < n) {c c' : BitVec 16} (hc : CrcMasked n c) (hc' : CrcMasked n c')
    {bit : Bool} (h : crcBit n poly c bit = crcBit n poly c' bit) : c = c' := by
  have hfeedback := crcFeedback_eq_of_crcBit_eq hn hpoly hpos h
  have htop : c.getLsbD (n - 1) = c'.getLsbD (n - 1) := Bool.xor_left_inj.mp hfeedback
  have hshifted (i : Nat) (hi : i + 1 < n) : c.getLsbD i = c'.getLsbD i := by
    have hbit := congrArg (BitVec.getLsbD · (i + 1)) h
    simpa [getLsbD_crcBit hn, hfeedback, hi] using hbit
  rw [← hc, ← hc']
  apply BitVec.eq_of_getLsbD_eq
  intro i _
  rw [getLsbD_and_crcMask hn, getLsbD_and_crcMask hn]
  rcases Nat.lt_trichotomy (i + 1) n with hi | hi | hi
  · rw [hshifted i hi]
  · rw [show i = n - 1 by omega, htop]
  · rw [decide_eq_false (by omega), Bool.false_and, Bool.false_and]

theorem foldl_crcBit_injective (hpos : 0 < n) (bits : List Bool) {c c' : BitVec 16} (hc : CrcMasked n c)
    (hc' : CrcMasked n c') (h : bits.foldl (crcBit n poly) c = bits.foldl (crcBit n poly) c') : c = c' := by
  induction bits generalizing c c' with
  | nil => exact h
  | cons bit bits ih =>
    exact crcBit_injective hn hpoly hpos hc hc' (ih (crcMasked_crcBit hn ..) (crcMasked_crcBit hn ..) h)

/-- Two streams that differ in one bit leave different registers: the same before that bit, different after
it, and different ever after. -/
theorem foldl_crcBit_ne_of_flip (hpos : 0 < n) (pre post : List Bool) {bit bit' : Bool} (hbit : bit ≠ bit')
    (c : BitVec 16) :
    (pre ++ bit :: post).foldl (crcBit n poly) c ≠ (pre ++ bit' :: post).foldl (crcBit n poly) c := by
  rw [List.foldl_append, List.foldl_append, List.foldl_cons, List.foldl_cons]
  intro h
  have hstep := foldl_crcBit_injective hn hpoly hpos post (crcMasked_crcBit hn ..) (crcMasked_crcBit hn ..) h
  exact hbit (Bool.xor_right_inj.mp (crcFeedback_eq_of_crcBit_eq hn hpoly hpos hstep))

end

/-- Two tables that differ at one index only are the same before it and after it. -/
theorem map_range_split {α : Type} {f g : Nat → α} {n i : Nat} (hi : i < n)
    (h : ∀ i' < n, i' ≠ i → g i' = f i') :
    ∃ pre post, (List.range n).map f = pre ++ f i :: post ∧ (List.range n).map g = pre ++ g i :: post := by
  have hsplit (f : Nat → α) : (List.range n).map f =
      (List.range i).map f ++ f i :: (List.range (n - i - 1)).map fun k => f (i + (k + 1)) := by
    rw [show n = i + (n - i - 1 + 1) by omega, List.range_add, List.range_succ_eq_map]
    simp [Function.comp_def]
  refine ⟨_, _, hsplit f, (hsplit g).trans ?_⟩
  congr 1
  · exact List.map_congr_left fun k hk => h k (by have := List.mem_range.mp hk; omega) (List.mem_range.mp hk).ne
  · congr 1
    exact List.map_congr_left fun k hk => h _ (by have := List.mem_range.mp hk; omega) (by omega)

/-- Flipping bit `j` of a value flips one bit of its stream. -/
theorem bitsOf_flip {w j : Nat} (v : BitVec w) (hj : j < w) :
    ∃ (pre post : List Bool) (bit : Bool),
      bitsOf v = pre ++ bit :: post ∧ bitsOf (v ^^^ BitVec.twoPow w j) = pre ++ (!bit) :: post := by
  have hflip (i : Nat) : (v ^^^ BitVec.twoPow w j).getMsbD i = (v.getMsbD i ^^ decide (i = w - j - 1)) := by
    rw [BitVec.getMsbD_xor, BitVec.getMsbD_twoPow, decide_eq_true hj, Bool.true_and]
  obtain ⟨pre, post, hv, hv'⟩ := map_range_split (f := v.getMsbD) (g := (v ^^^ BitVec.twoPow w j).getMsbD)
    (show w - j - 1 < w by omega) fun i _ hi => by rw [hflip, decide_eq_false hi, Bool.xor_false]
  refine ⟨pre, post, _, hv, hv'.trans ?_⟩
  rw [hflip, decide_eq_true rfl, Bool.xor_true]

/-- One flipped bit of one byte changes the CRC, under a polynomial of constant term 1. -/
theorem crcOf_ne_of_flip {n : Nat} (hpos : 0 < n) (hn : n ≤ 16) {poly : BitVec 16} (hpoly : poly.getLsbD 0 = true)
    (pre post : List Byte) (v : Byte) {j : Nat} (hj : j < 8) (start : BitVec 16) :
    crcOf (pre ++ v :: post) start n poly ≠ crcOf (pre ++ (v ^^^ BitVec.twoPow 8 j) :: post) start n poly := by
  obtain ⟨before, after, bit, hv, hv'⟩ := bitsOf_flip v hj
  have hstream (u : Byte) : bitStream (pre ++ u :: post) = bitStream pre ++ (bitsOf u ++ bitStream post) := by
    rw [bitStream, List.flatMap_append]
    rfl
  have hne := foldl_crcBit_ne_of_flip hn hpoly hpos (bitStream pre ++ before) (after ++ bitStream post)
    (Bool.not_ne_self bit).symm (start &&& crcMask n)
  simpa only [crcOf, hstream, hv, hv', List.append_assoc, List.cons_append] using hne

end Sys2Proof.Machine
end

section
/-! SUPPORT. What each CRC command does, by the outcome of its checks: its next state as an equation. -/

namespace Sys2Proof.Machine

/-! ### The CRC of a range of RAW_BUF -/

/-- The start value of either K (42_crc R241). -/
theorem startValue_eq_refStart (s : State) (k : StartSel) : s.startValue k = refStart s k := by
  cases k <;> rfl

section
variable {s : State} (h : s.crcOrder.toNat ≤ 16)
include h

theorem State.crc_toNat (bytes : List Byte) (k : StartSel) :
    (s.crc bytes (s.startValue k)).toNat =
      refCrc s.crcOrder.toNat s.crcPoly.toNat (refStart s k).toNat bytes := by
  rw [State.crc, crcOf_toNat h, startValue_eq_refStart]

theorem State.crc_rawRange_toNat (a b : Nat) (k : StartSel) :
    (s.crc (s.rawRange a b) (s.startValue k)).toNat = refCrcOfBytes s (refStart s k) (0x800 + a) b :=
  State.crc_toNat h (s.rawRange a b) k

end

/-- A CRC of order 8 or less fits the stored byte (42_crc R242). -/
theorem State.crc_toNat_lt {s : State} (h : s.storedCrcOk) (bytes : List Byte) (start : BitVec 16) :
    (s.crc bytes start).toNat < 2 ^ 8 :=
  have hn : s.crcOrder.toNat ≤ 16 := h.trans (by decide)
  calc (s.crc bytes start).toNat
    _ < 2 ^ s.crcOrder.toNat := (crcMasked_crcOf hn bytes start s.crcPoly).toNat_lt hn
    _ ≤ 2 ^ 8 := Nat.pow_le_pow_right (by decide) h

/-! ### CRC_COMPUTE (42_crc R243) -/

section
variable {s : State} {a b : Nat} (k : StartSel)

theorem exec_crcCompute_badParam (h : 256 < a + b) : exec (.crcCompute a b k) s = .next (s.raise .badParam) :=
  congrArg Host.Outcome.next (if_pos (not_rawFits_iff.mpr h))

theorem exec_crcCompute_done (h : a + b ≤ 256) :
    exec (.crcCompute a b k) s =
      .next (s.setResult0 ((s.crc (s.rawRange a b) (s.startValue k)).zeroExtend 32)).done :=
  congrArg Host.Outcome.next (if_neg (not_not.mpr h))

end

/-! ### CRC_CHECK (42_crc R244) and CRC_FILL (42_crc R245) -/

/-- The legal operands of CRC_CHECK and CRC_FILL. -/
abbrev State.storedCrcLegal (s : State) (a b : Nat) : Prop := b ≠ 0 ∧ a + b ≤ 256 ∧ s.crcOrder.toNat ≤ 8

/-- The CRC of a block whose first byte is its stored CRC: that of the bytes after it. -/
def State.blockCrc (s : State) (a b : Nat) (k : StartSel) : BitVec 16 :=
  s.crc (s.rawRange (a + 1) (b - 1)) (s.startValue k)

/-- The state after CRC_FILL with legal operands. -/
def State.crcFilled (s : State) (a b : Nat) (k : StartSel) : State :=
  ((s.writeBytes (0x800 + a) [(s.blockCrc a b k).extractLsb' 0 8]).setResult0 ((s.blockCrc a b k).zeroExtend 32)).done

@[simp] theorem State.crcFilled_err (s : State) (a b : Nat) (k : StartSel) : (s.crcFilled a b k).err = .none := rfl

@[simp] theorem State.crcFilled_crcOrder (s : State) (a b : Nat) (k : StartSel) :
    (s.crcFilled a b k).crcOrder = s.crcOrder := rfl

@[simp] theorem State.crcFilled_allowNoenc (s : State) (a b : Nat) (k : StartSel) :
    (s.crcFilled a b k).allowNoenc = s.allowNoenc := rfl

@[simp] theorem State.crcFilled_oldValid (s : State) (a b : Nat) (k : StartSel) :
    (s.crcFilled a b k).oldValid = s.oldValid := rfl

/-- The range after the first byte keeps its bytes. -/
theorem State.crcFilled_rawRange_rest (s : State) (a b n : Nat) (k : StartSel) :
    (s.crcFilled a b k).rawRange (a + 1) n = s.rawRange (a + 1) n :=
  List.map_congr_left fun i _ => s.readByte_writeBytes_outside (by
    rw [List.length_singleton]
    unfold rawBase
    omega)

theorem State.crcFilled_readByte (s : State) (a b : Nat) (k : StartSel) :
    (s.crcFilled a b k).readByte (0x800 + a) = (s.blockCrc a b k).extractLsb' 0 8 :=
  s.readByte_writeBytes_inside (vs := [(s.blockCrc a b k).extractLsb' 0 8]) (i := 0) (by simp)

theorem State.blockCrc_toNat {s : State} (h : s.crcOrder.toNat ≤ 8) (a b : Nat) (k : StartSel) :
    (s.blockCrc a b k).toNat = refCrcOfBytes s (refStart s k) (0x800 + a + 1) (b - 1) :=
  State.crc_rawRange_toNat (h.trans (by decide)) (a + 1) (b - 1) k

section
variable {s : State} {a b : Nat} (k : StartSel)

theorem not_storedCrcLegal_iff : ¬ s.storedCrcLegal a b ↔ b = 0 ∨ ¬ rawFits a b ∨ ¬ s.storedCrcOk := by
  rw [not_and_or, not_and_or, not_not]

theorem exec_crcCheck_badParam (h : ¬ s.storedCrcLegal a b) :
    exec (.crcCheck a b k) s = .next (s.raise .badParam) :=
  congrArg Host.Outcome.next (if_pos (not_storedCrcLegal_iff.mp h))

/-- Both results are written before the comparison decides on the error code. -/
theorem exec_crcCheck_compared (h : s.storedCrcLegal a b) :
    exec (.crcCheck a b k) s =
      .next (((s.setResult0 ((s.blockCrc a b k).zeroExtend 32)).setResult1
        ((s.readByte (0x800 + a)).zeroExtend 32)).complete
          (if (s.blockCrc a b k).toNat = (s.readByte (0x800 + a)).toNat then .none else .crcFail)) := by
  have hcompare : s.blockCrc a b k = (s.readByte (0x800 + a)).zeroExtend 16 ↔
      (s.blockCrc a b k).toNat = (s.readByte (0x800 + a)).toNat := by
    rw [← BitVec.toNat_inj, BitVec.toNat_setWidth_of_le (by decide)]
  refine congrArg Host.Outcome.next ((if_neg (not_storedCrcLegal_iff.not_right.mp h)).trans ?_)
  rw [apply_ite (State.complete _)]
  exact if_congr hcompare rfl rfl

theorem exec_crcFill_badParam (h : ¬ s.storedCrcLegal a b) :
    exec (.crcFill a b k) s = .next (s.raise .badParam) :=
  congrArg Host.Outcome.next (if_pos (not_storedCrcLegal_iff.mp h))

theorem exec_crcFill_done (h : s.storedCrcLegal a b) :
    exec (.crcFill a b k) s = .next (s.crcFilled a b k) :=
  congrArg Host.Outcome.next (if_neg (not_storedCrcLegal_iff.not_right.mp h))

/-- The byte CRC_FILL stores is the whole CRC. -/
theorem State.blockCrc_storedByte_toNat (h : s.crcOrder.toNat ≤ 8) :
    ((s.blockCrc a b k).extractLsb' 0 8).toNat = (s.blockCrc a b k).toNat := by
  rw [BitVec.extractLsb'_toNat, Nat.shiftRight_zero]
  exact Nat.mod_eq_of_lt (State.crc_toNat_lt h ..)

end

end Sys2Proof.Machine
end

section
/-! SUPPORT. The statements of 42_crc. -/

namespace Sys2Proof.Machine

/-- Settles O18, by the arithmetic of one data bit along the stream. -/
theorem crcFunctionFollowsItsRule : Obligations.CrcFunctionFollowsItsRule :=
  ⟨fun bytes start poly _ _ hn => crcOf_toNat hn bytes start poly, fun _ bytes k _ hn => State.crc_toNat hn bytes k⟩

/-- A command that only writes results completes with the frame of those it wrote. -/
theorem Frame.setResult0_done (s : State) (v : Word) : Frame .none 0 [.result0] s (s.setResult0 v).done :=
  Frame.raise_results s .none (r1 := s.result1) (by simp) (fun _ => rfl)

/-- Settles O19. -/
theorem crcComputeReportsTheCrc : Obligations.CrcComputeReportsTheCrc := by
  intro s a b k _ hn
  refine ⟨refEncoding_opcode (.crcCompute a b k), fun hbad => ?_, fun hfits => ?_⟩
  · exact ⟨_, exec_crcCompute_badParam k hbad, Frame.raise s _⟩
  · refine ⟨_, exec_crcCompute_done k hfits, Frame.setResult0_done s _, ?_⟩
    exact (toNat_zeroExtend_word (by decide) _).trans (State.crc_rawRange_toNat hn a b k)

/-- Settles O20: the two results are written whatever the comparison says. -/
theorem crcCheckComparesTheStoredByte : Obligations.CrcCheckComparesTheStoredByte := by
  intro s a b k _ legal c stored
  refine ⟨refEncoding_opcode (.crcCheck a b k), fun hbad => ?_, fun hok => ?_⟩
  · exact ⟨_, exec_crcCheck_badParam k hbad, Frame.raise s _⟩
  · have ⟨_, _, horder⟩ := hok
    have hc : (s.blockCrc a b k).toNat = c := State.blockCrc_toNat horder a b k
    refine ⟨_, exec_crcCheck_compared k hok, ?_, ?_, ?_⟩
    · rw [hc]
      exact Frame.raise_results s _ (by simp) (by simp)
    · exact (toNat_zeroExtend_word (by decide) _).trans hc
    · exact toNat_zeroExtend_word (by decide) (s.readByte (0x800 + a))

/-- A command that stores bytes and reports in RESULT0 completes with the frame of both. -/
theorem Frame.writeBytes_setResult0_done (s : State) (base : Nat) {vs : List Byte} {n : Nat} (hn : vs.length = n)
    (v : Word) : Frame .none 0 [.result0, .bytes base n] s ((s.writeBytes base vs).setResult0 v).done :=
  Frame.of_complete rfl BitVec.or_zero.symm { SameHost.refl s with } (by simp) (fun _ => rfl)
    (fun _ => ⟨rfl, rfl, rfl⟩) (fun _ => rfl) (fun c _ => by cases c <;> rfl) (fun _ _ => rfl)
    (fun _ hx => s.readByte_writeBytes_outside (hn ▸ hx base n (by simp)))

/-- Settles O21: a CRC of order 8 or less is its own low byte. -/
theorem crcFillStoresTheCrc : Obligations.CrcFillStoresTheCrc := by
  intro s a b k _ legal c
  refine ⟨refEncoding_opcode (.crcFill a b k), fun hbad => ?_, fun hok => ?_⟩
  · exact ⟨_, exec_crcFill_badParam k hbad, Frame.raise s _⟩
  · have ⟨_, _, horder⟩ := hok
    have hc : (s.blockCrc a b k).toNat = c := State.blockCrc_toNat horder a b k
    refine ⟨_, exec_crcFill_done k hok, Frame.writeBytes_setResult0_done s _ List.length_singleton _, ?_, ?_⟩
    · exact (toNat_zeroExtend_word (by decide) _).trans hc
    · rw [State.crcFilled_readByte, State.blockCrc_storedByte_toNat k horder, hc]

/-- A range of RAW_BUF is its first part, then the rest. -/
theorem State.rawRange_add (s : State) (a b c : Nat) :
    s.rawRange a (b + c) = s.rawRange a b ++ s.rawRange (a + b) c := by
  simp only [State.rawRange, List.range_add, List.map_append, List.map_map, Function.comp_def, Nat.add_assoc]

/-- Settles O22: RESULT0 of the first block, moved to ARG0, is the start value of the second. -/
theorem crcContinuesAcrossBlocks : Obligations.CrcContinuesAcrossBlocks := by
  intro s a b c k hfits _ hn
  refine ⟨_, _, _, exec_crcCompute_done k (by omega), exec_crcCompute_done .arg0 (by omega),
    exec_crcCompute_done k (by omega), ?_⟩
  have hstart (v : BitVec 16) : (v.zeroExtend 32).extractLsb' 0 16 = v := by
    apply BitVec.eq_of_toNat_eq
    rw [BitVec.extractLsb'_toNat, toNat_zeroExtend_word (by decide), Nat.shiftRight_zero, Nat.mod_eq_of_lt v.isLt]
  refine congrArg (BitVec.zeroExtend 32) (Eq.trans ?_ (congrArg (s.crc · _) (s.rawRange_add a b c)).symm)
  calc s.crc (s.rawRange (a + b) c) (((s.crc (s.rawRange a b) (s.startValue k)).zeroExtend 32).extractLsb' 0 16)
    _ = s.crc (s.rawRange (a + b) c) (s.crc (s.rawRange a b) (s.startValue k)) := by rw [hstart]
    _ = s.crc (s.rawRange a b ++ s.rawRange (a + b) c) (s.startValue k) := (crcOf_append hn ..).symm

/-- Settles O23: the two ranges differ in one byte, and that byte in one bit. -/
theorem crcDetectsEverySingleBitError : Obligations.CrcDetectsEverySingleBitError := by
  intro s s' a b i j k hfits hi hj hpos hn hpoly hOrder hPoly hInit hArg hflip hsame
  refine ⟨_, _, exec_crcCompute_done k hfits, exec_crcCompute_done k hfits, fun heq => ?_⟩
  have hstart : s'.startValue k = s.startValue k := by
    cases k with
    | crcInit => exact hInit
    | arg0 => exact congrArg (BitVec.extractLsb' 0 16) hArg
  obtain ⟨pre, post, hrange, hrange'⟩ : ∃ pre post,
      s.rawRange a b = pre ++ s.readByte (0x800 + a + i) :: post ∧
      s'.rawRange a b = pre ++ s'.readByte (0x800 + a + i) :: post := map_range_split hi hsame
  have hcrc : s.crc (s.rawRange a b) (s.startValue k) = s'.crc (s'.rawRange a b) (s'.startValue k) := by
    apply BitVec.eq_of_toNat_eq
    rw [← toNat_zeroExtend_word (by decide) (s.crc ..), ← toNat_zeroExtend_word (by decide) (s'.crc ..)]
    exact congrArg BitVec.toNat heq
  refine crcOf_ne_of_flip hpos hn hpoly pre post (s.readByte (0x800 + a + i)) hj (s.startValue k) ?_
  calc s.crc (pre ++ s.readByte (0x800 + a + i) :: post) (s.startValue k)
    _ = s.crc (s.rawRange a b) (s.startValue k) := congrArg (s.crc · _) hrange.symm
    _ = s'.crc (s'.rawRange a b) (s'.startValue k) := hcrc
    _ = s.crc (s'.rawRange a b) (s.startValue k) := by rw [State.crc, hOrder, hPoly, hstart, State.crc]
    _ = s.crc (pre ++ (s.readByte (0x800 + a + i) ^^^ BitVec.twoPow 8 j) :: post) (s.startValue k) := by
      rw [← hflip, ← hrange']

end Sys2Proof.Machine
end

section
/-! SUPPORT. XTEA deciphering undoes enciphering, on a block and on a range of blocks (44_xtea R292 to R295). -/

namespace Sys2Proof.Machine

/-! ### One block -/

/-- The sums of `n` cycles, counted from the first cycle on. -/
theorem xteaDelta_mul_succ (n : Nat) :
    xteaDelta * BitVec.ofNat 32 (n + 1) = xteaDelta + xteaDelta * BitVec.ofNat 32 n := by
  rw [BitVec.ofNat_add, BitVec.mul_add, BitVec.mul_one, BitVec.add_comm]

/-- The last cycle of deciphering starts from the sum that the cycles before it leave. -/
theorem xteaDecFrom_last (key : Key) (n : Nat) (sum v0 v1 : Word) :
    xteaDecFrom key (n + 1) sum v0 v1 =
      xteaDecFrom key 1 (sum - xteaDelta * BitVec.ofNat 32 n) (xteaDecFrom key n sum v0 v1).1
        (xteaDecFrom key n sum v0 v1).2 := by
  induction n generalizing sum v0 v1 with
  | zero => simp [xteaDecFrom]
  | succ n ih =>
    rw [xteaDecFrom, ih, xteaDelta_mul_succ, ← sub_sub]
    rfl

theorem xteaDecFrom_xteaEncFrom (key : Key) (n : Nat) (sum v0 v1 : Word) :
    xteaDecFrom key n (sum + xteaDelta * BitVec.ofNat 32 n) (xteaEncFrom key n sum v0 v1).1
      (xteaEncFrom key n sum v0 v1).2 = (v0, v1) := by
  induction n generalizing sum v0 v1 with
  | zero => rfl
  | succ n ih =>
    rw [xteaEncFrom, xteaDelta_mul_succ, ← BitVec.add_assoc, xteaDecFrom_last, ih, BitVec.add_sub_cancel]
    simp [xteaDecFrom]

theorem xteaD_xteaE (key : Key) (n : Nat) (v0 v1 : Word) :
    xteaD key n (xteaE key n v0 v1).1 (xteaE key n v0 v1).2 = (v0, v1) := by
  have h := xteaDecFrom_xteaEncFrom key n 0 v0 v1
  rwa [zero_add] at h

/-! ### A range of blocks -/

/-- The bytes of a word put together from four bytes. -/
theorem bytesOf_append (b0 b1 b2 b3 : Byte) :
    bytesOf (b0 ++ b1 ++ b2 ++ b3 : BitVec (8 + 8 + 8 + 8)) = [b0, b1, b2, b3] := by
  simp [-Nat.reduceAdd, bytesOf, BitVec.extractLsb'_append_eq_of_le, BitVec.extractLsb'_append_eq_of_add_le]

/-- Four bytes or more begin with the bytes of their word. -/
theorem bytesOf_be32 : (bs : List Byte) → 4 ≤ bs.length → bs = bytesOf (be32 bs) ++ bs.drop 4
  | b0 :: b1 :: b2 :: b3 :: rest, _ => (congrArg (· ++ rest) (bytesOf_append b0 b1 b2 b3)).symm

/-- Eight bytes or more begin with the bytes of their two words. -/
theorem exists_firstBlock {bs : List Byte} (h : 8 ≤ bs.length) :
    ∃ v0 v1, bs = bytesOf v0 ++ (bytesOf v1 ++ bs.drop 8) := by
  refine ⟨be32 bs, be32 (bs.drop 4), (bytesOf_be32 _ (by omega)).trans ?_⟩
  congr 1
  exact (bytesOf_be32 _ (by rw [List.length_drop]; omega)).trans (by rw [List.drop_drop])

theorem mapBlocks_firstBlock (f : Word → Word → Word × Word) (n : Nat) (v0 v1 : Word) (rest : List Byte) :
    mapBlocks f (n + 1) (bytesOf v0 ++ (bytesOf v1 ++ rest)) =
      bytesOf (f v0 v1).1 ++ (bytesOf (f v0 v1).2 ++ mapBlocks f n rest) := by
  rw [mapBlocks, List.drop_left' (bytesOf_length v0), be32_bytesOf, be32_bytesOf, List.append_assoc]
  rfl

theorem mapBlocks_inverse {f g : Word → Word → Word × Word} (h : ∀ v0 v1, g (f v0 v1).1 (f v0 v1).2 = (v0, v1))
    {n : Nat} {bs : List Byte} (hlen : bs.length = 8 * n) : mapBlocks g n (mapBlocks f n bs) = bs := by
  induction n generalizing bs with
  | zero => exact (List.length_eq_zero_iff.mp hlen).symm
  | succ n ih =>
    obtain ⟨v0, v1, hbs⟩ := exists_firstBlock (bs := bs) (by omega)
    rw [hbs, mapBlocks_firstBlock, mapBlocks_firstBlock, h, ih (by rw [List.length_drop]; omega)]

end Sys2Proof.Machine
end

section
/-! SUPPORT. What the XTEA commands do when their checks pass: the next state as an equation (44_xtea R296,
R298), and what an XTEA command reads of a range that was just stored. -/

namespace Sys2Proof.Machine

theorem State.rawRange_writeBytes (s : State) (a : Nat) {vs : List Byte} {n : Nat} (hn : vs.length = n) :
    (s.writeBytes (0x800 + a) vs).rawRange a n = vs :=
  s.codecDone_rawRange 0 a hn

theorem not_methodRefused {s : State} {m : BitVec 2} {k : KeySel} (h : refMethodOk s m k) : ¬ s.methodRefused m :=
  fun ⟨hm, hnoenc⟩ => Bool.noConfusion (hnoenc.symm.trans (h.left hm))

theorem not_keyRefused {s : State} {m : BitVec 2} {k : KeySel} (h : refMethodOk s m k) : ¬ s.keyRefused m k :=
  fun ⟨hm, hk, hvalid⟩ => Bool.noConfusion (hvalid.symm.trans (h.right hm hk))

section
variable {s : State} {a b : Nat} {m : BitVec 2} {k : KeySel}

theorem refBlocksOk.length_rawRange (h : refBlocksOk a b) (s : State) : (s.rawRange a b).length = 8 * (b / 8) := by
  have ⟨_, hmod, _⟩ := h
  rw [State.rawRange_length]
  omega

theorem refBlocksOk_iff : refBlocksOk a b ↔ blockRangeOk a b := Iff.rfl

/-- The range and the method of XTEA_ENC and XTEA_DEC pass their checks. -/
theorem xteaChecks_pass (hb : refBlocksOk a b) (hm : refMethodOk s m k) {x y : State} :
    (if ¬ blockRangeOk a b then x else if s.methodRefused m then x else if s.keyRefused m k then x else y) = y := by
  rw [if_neg (not_not.mpr (refBlocksOk_iff.mp hb)), if_neg (not_methodRefused hm), if_neg (not_keyRefused hm)]

/-- The state after XTEA_ENC with a method other than 0 (44_xtea R296). -/
def State.enciphered (s : State) (a b : Nat) (m : BitVec 2) (k : KeySel) : State :=
  (s.writeBytes (0x800 + a) (mapBlocks (xteaE (s.key k) (s.cycles m)) (b / 8) (s.rawRange a b))).done

theorem exec_xteaEnc_plain (hb : refBlocksOk a b) (hm : refMethodOk s m k) (hzero : m = 0) :
    exec (.xteaEnc a b m k) s = .next s.done :=
  congrArg Host.Outcome.next ((xteaChecks_pass hb hm).trans (if_pos hzero))

theorem exec_xteaEnc_done (hb : refBlocksOk a b) (hm : refMethodOk s m k) (hne : m ≠ 0) :
    exec (.xteaEnc a b m k) s = .next (s.enciphered a b m k) :=
  congrArg Host.Outcome.next ((xteaChecks_pass hb hm).trans (if_neg hne))

/-- The checks of OPEN_PAYLOAD, which also asks for a CRC that fits a byte. -/
theorem openChecks_pass (hb : refBlocksOk a b) (horder : s.crcOrder.toNat ≤ 8) (hm : refMethodOk s m k)
    {x y : State} :
    (if ¬ blockRangeOk a b ∨ ¬ s.storedCrcOk then x
      else if s.methodRefused m then x else if s.keyRefused m k then x else y) = y := by
  rw [if_neg (not_or.mpr ⟨not_not.mpr (refBlocksOk_iff.mp hb), not_not.mpr (show s.storedCrcOk from horder)⟩),
    if_neg (not_methodRefused hm), if_neg (not_keyRefused hm)]

theorem exec_openPayload_plain (hb : refBlocksOk a b) (horder : s.crcOrder.toNat ≤ 8) (hm : refMethodOk s m k)
    (hzero : m = 0) (hcrc : s.payloadCrcOk (s.rawRange a b) = true) :
    exec (.openPayload a b m k) s = .next (s.setResult0 0).done :=
  congrArg Host.Outcome.next
    ((openChecks_pass hb horder hm).trans ((if_pos hzero).trans (if_pos hcrc)))

/-- The selected key comes first of the keys tried (44_xtea R298). -/
theorem State.openUnder_first {c p : List Byte}
    (hp : mapBlocks (xteaD (s.key k) (s.cycles m)) (c.length / 8) c = p) (hcrc : s.payloadCrcOk p = true) :
    s.openUnder m c 0 (s.keyOrder k) = some (0, k, p) := by
  subst hp
  rw [State.keyOrder]
  split <;> rw [State.openUnder, if_pos hcrc]

theorem exec_openPayload_first (hb : refBlocksOk a b) (horder : s.crcOrder.toNat ≤ 8) (hm : refMethodOk s m k)
    (hne : m ≠ 0) {p : List Byte} (hp : mapBlocks (xteaD (s.key k) (s.cycles m)) (b / 8) (s.rawRange a b) = p)
    (hcrc : s.payloadCrcOk p = true) :
    exec (.openPayload a b m k) s =
      .next ((s.writeBytes (0x800 + a) p).setResult0 ((m ++ 0#1 ++ BitVec.ofBool k.toK).zeroExtend 32)).done := by
  refine congrArg Host.Outcome.next ((openChecks_pass hb horder hm).trans ((if_neg hne).trans ?_))
  rw [State.openUnder_first (by rwa [State.rawRange_length]) hcrc]
  rfl

end

/-- RESULT0 of OPEN_PAYLOAD with no fallback (44_xtea R298). -/
theorem keyReport_toNat (m : BitVec 2) (k : KeySel) :
    ((m ++ 0#1 ++ BitVec.ofBool k.toK).zeroExtend 32).toNat = 4 * m.toNat + if k = .old then 1 else 0 := by
  revert m
  cases k <;> decide

end Sys2Proof.Machine
end

section
/-! SUPPORT. The send path and the receive path of a payload (42_crc R245, 44_xtea R296, R298). -/

namespace Sys2Proof.Machine

/-- A filled payload has the CRC that OPEN_PAYLOAD asks for. -/
theorem State.payloadCrcOk_crcFilled {s : State} {a b : Nat} (hb : b ≠ 0) (horder : s.crcOrder.toNat ≤ 8) :
    (s.crcFilled a b .crcInit).payloadCrcOk ((s.crcFilled a b .crcInit).rawRange a b) = true := by
  have hpayload : (s.crcFilled a b .crcInit).rawRange a b =
      (s.blockCrc a b .crcInit).extractLsb' 0 8 :: s.rawRange (a + 1) (b - 1) := by
    rw [← s.crcFilled_rawRange_rest a b (b - 1) .crcInit, ← s.crcFilled_readByte a b .crcInit]
    obtain ⟨n, rfl⟩ := Nat.exists_eq_succ_of_ne_zero hb
    rw [Nat.succ_eq_one_add, State.rawRange_add, Nat.add_sub_cancel_left]
    rfl
  have hbyte : ((s.blockCrc a b .crcInit).extractLsb' 0 8).zeroExtend 16 = s.blockCrc a b .crcInit := by
    apply BitVec.eq_of_toNat_eq
    rw [BitVec.toNat_setWidth_of_le (by decide), State.blockCrc_storedByte_toNat .crcInit horder]
  rw [hpayload]
  exact beq_iff_eq.mpr hbyte

@[simp] theorem State.enciphered_key (s : State) (a b : Nat) (m : BitVec 2) (k j : KeySel) :
    (s.enciphered a b m k).key j = s.key j := rfl

@[simp] theorem State.enciphered_cycles (s : State) (a b : Nat) (m n : BitVec 2) (k : KeySel) :
    (s.enciphered a b m k).cycles n = s.cycles n := rfl

/-- The deciphered blocks of the enciphered range are the range. -/
theorem State.mapBlocks_enciphered (s : State) {a b : Nat} (m : BitVec 2) (k : KeySel) (hb : refBlocksOk a b) :
    mapBlocks (xteaD (s.key k) (s.cycles m)) (b / 8) ((s.enciphered a b m k).rawRange a b) = s.rawRange a b := by
  have hlen := hb.length_rawRange s
  have hcipher : (s.enciphered a b m k).rawRange a b =
      mapBlocks (xteaE (s.key k) (s.cycles m)) (b / 8) (s.rawRange a b) :=
    s.rawRange_writeBytes a (by rw [mapBlocks_length, ← hlen, State.rawRange_length])
  rw [hcipher, mapBlocks_inverse (xteaD_xteaE (s.key k) (s.cycles m)) hlen]

/-- A payload with a fitting CRC is the plaintext that OPEN_PAYLOAD finds under the key XTEA_ENC used. -/
theorem openPayload_xteaEnc {s : State} {a b : Nat} {m : BitVec 2} {k : KeySel} (hb : refBlocksOk a b)
    (hm : refMethodOk s m k) (horder : s.crcOrder.toNat ≤ 8) (hcrc : s.payloadCrcOk (s.rawRange a b) = true) :
    ∃ t u, exec (.xteaEnc a b m k) s = .next t ∧ exec (.openPayload a b m k) t = .next u ∧ t.err = .none ∧
      u.err = .none ∧ u.rawRange a b = s.rawRange a b ∧
      u.result0.toNat = if m = 0 then 0 else 4 * m.toNat + (if k = .old then 1 else 0) := by
  by_cases hzero : m = 0
  · refine ⟨_, _, exec_xteaEnc_plain hb hm hzero, exec_openPayload_plain (s := s.done) hb horder hm hzero hcrc, rfl,
      rfl, rfl, ?_⟩
    rw [if_pos hzero]
    rfl
  · have hplain := s.mapBlocks_enciphered m k hb
    rw [← s.enciphered_key a b m k, ← s.enciphered_cycles a b m m k] at hplain
    refine ⟨_, _, exec_xteaEnc_done hb hm hzero,
      exec_openPayload_first (s := s.enciphered a b m k) hb horder hm hzero hplain hcrc, rfl, rfl, ?_, ?_⟩
    · exact State.rawRange_writeBytes _ a (State.rawRange_length ..)
    · rw [if_neg hzero]
      exact keyReport_toNat m k

/-- Settles O31: CRC_FILL leaves a payload with a fitting CRC, and changes no register the other two read. -/
theorem openPayloadUndoesSeal : Obligations.OpenPayloadUndoesSeal := by
  intro s a b m k hb hm _ horder
  have ⟨hpos, _, hfits⟩ := hb
  have hm' : refMethodOk (s.crcFilled a b .crcInit) m k := by
    rwa [refMethodOk, State.crcFilled_allowNoenc, State.crcFilled_oldValid]
  obtain ⟨u, v, hseal, hopen, huerr, hverr, hbytes, hreport⟩ :=
    openPayload_xteaEnc hb hm' (by rwa [State.crcFilled_crcOrder]) (State.payloadCrcOk_crcFilled hpos horder)
  refine ⟨_, u, v, exec_crcFill_done .crcInit ⟨hpos, hfits, horder⟩, hseal, hopen, State.crcFilled_err .., huerr,
    hverr, fun i hi => ?_, hreport⟩
  have hi' : i < ((s.crcFilled a b .crcInit).rawRange a b).length := by rwa [State.rawRange_length]
  exact (State.readByte_of_rawRange hbytes hi').trans (State.rawRange_getElem _ a b i hi')

end Sys2Proof.Machine
end

section
/-! SUPPORT. PID classification: each field of the reported word by division from the raw PID (43_packet_layout
R270 to R272). -/

namespace Sys2Proof.Machine

/-- The kind ranges of R271 are the same as bit patterns and as numbers. -/
theorem pidClass_toNat (kind : BitVec 6) : (pidClass kind).toNat = refPidClass kind.toNat := by
  simp only [pidClass, refPidClass, apply_ite BitVec.toNat, ← BitVec.toNat_inj, BitVec.le_def, List.mem_cons,
    List.not_mem_nil, or_false]
  rfl

theorem bne_zero_toNat {w : Nat} (x : BitVec w) : (x != 0).toNat = if x.toNat = 0 then 0 else 1 := by
  by_cases h : x = 0
  · subst h
    simp
  · have hne : x.toNat ≠ 0 := fun hzero => h (BitVec.eq_of_toNat_eq hzero)
    rw [bne_iff_ne.mpr h, if_neg hne]
    rfl

theorem pidWord_toNat (p : BitVec 16) :
    (pidWord p).toNat = p.toNat % 64 + 2 ^ 8 * refPidClass (p.toNat % 64) + 2 ^ 12 * (p.toNat / 64 % 2)
      + 2 ^ 13 * (p.toNat / 128 % 2) + 2 ^ 16 * (p.toNat / 256 % 16)
      + 2 ^ 24 * (if p.toNat / 4096 = 0 then 0 else 1) := by
  have hrsv : p.toNat / 4096 % 16 = p.toNat / 4096 := Nat.mod_eq_of_lt (by omega)
  simp only [pidWord, toNat_append_eq_add, BitVec.toNat_ofBool, BitVec.toNat_ofNat, bne_zero_toNat, pidClass_toNat,
    BitVec.extractLsb'_toNat, Nat.shiftRight_eq_div_pow, Nat.reducePow, Nat.div_one, hrsv]
  omega

theorem State.argHalf_toNat (s : State) : s.argHalf.toNat = s.arg0.toNat % 65536 := by
  rw [State.argHalf, BitVec.extractLsb'_toNat, Nat.shiftRight_zero]

theorem exec_pidInfo (s : State) :
    exec .pidInfo s = .next ((s.setResult0 ((pidWord s.argHalf).zeroExtend 32)).setResult1 0).done := rfl

/-- Settles O24: PID_INFO has no check, and the class of a PID depends on its kind alone. -/
theorem pidInfoClassifiesTheRawPid : Obligations.PidInfoClassifiesTheRawPid := by
  intro s p
  have hp : s.argHalf.toNat = p := s.argHalf_toNat
  refine ⟨refEncoding_opcode .pidInfo, _, exec_pidInfo s, Frame.raise_results s .none (by simp) (by simp), rfl, ?_⟩
  rw [← hp]
  exact (toNat_zeroExtend_word (by decide) _).trans (pidWord_toNat _)

end Sys2Proof.Machine
end

section
/-! SUPPORT. The XTEA functions as iterations of the rule's loop bodies (44_xtea R294, R295). -/

namespace Sys2Proof.Machine

theorem toNat_and_three (i : Word) : (i &&& 3).toNat = i.toNat % 4 :=
  (BitVec.toNat_and i 3).trans (Nat.and_two_pow_sub_one_eq_mod i.toNat 2)

/-- `K[i & 3]` is a choice by the remainder of `i` (44_xtea R293). -/
theorem Key.word_eq_refKeyWord (key : Key) (i : Word) : key.word i = refKeyWord key (i.toNat % 4) := by
  have hlt : i.toNat % 4 < 4 := Nat.mod_lt _ (by decide)
  rw [Key.word, toNat_and_three]
  interval_cases i.toNat % 4 <;> rfl

/-- `K[(i >> 11) & 3]` is a choice by the two bits from bit 11 on (44_xtea R294). -/
theorem Key.word_shift_eq_refKeyWord (key : Key) (i : Word) :
    key.word (i >>> 11) = refKeyWord key (i.toNat / 2048 % 4) := by
  rw [Key.word_eq_refKeyWord, BitVec.toNat_ushiftRight, Nat.shiftRight_eq_div_pow]

theorem refEncCycle_eq (key : Key) (sum v0 v1 : Word) :
    refEncCycle key (sum, v0, v1) =
      (sum + xteaDelta, v0 + (xteaMix v1 ^^^ (sum + key.word sum)),
        v1 + (xteaMix (v0 + (xteaMix v1 ^^^ (sum + key.word sum))) ^^^
          (sum + xteaDelta + key.word ((sum + xteaDelta) >>> 11)))) := by
  rw [Key.word_eq_refKeyWord, Key.word_shift_eq_refKeyWord]
  rfl

theorem refDecCycle_eq (key : Key) (sum v0 v1 : Word) :
    refDecCycle key (sum, v0, v1) =
      (sum - xteaDelta,
        v0 - (xteaMix (v1 - (xteaMix v0 ^^^ (sum + key.word (sum >>> 11)))) ^^^
          (sum - xteaDelta + key.word (sum - xteaDelta))),
        v1 - (xteaMix v0 ^^^ (sum + key.word (sum >>> 11)))) := by
  rw [Key.word_shift_eq_refKeyWord, Key.word_eq_refKeyWord]
  rfl

theorem xteaEncFrom_eq_iterate (key : Key) (n : Nat) (sum v0 v1 : Word) :
    xteaEncFrom key n sum v0 v1 = ((refEncCycle key)^[n] (sum, v0, v1)).2 := by
  induction n generalizing sum v0 v1 with
  | zero => rfl
  | succ n ih => rw [xteaEncFrom, ih, Function.iterate_succ_apply, refEncCycle_eq]

theorem xteaDecFrom_eq_iterate (key : Key) (n : Nat) (sum v0 v1 : Word) :
    xteaDecFrom key n sum v0 v1 = ((refDecCycle key)^[n] (sum, v0, v1)).2 := by
  induction n generalizing sum v0 v1 with
  | zero => rfl
  | succ n ih => rw [xteaDecFrom, ih, Function.iterate_succ_apply, refDecCycle_eq]

/-- Settles O25, by induction on the number of cycles. -/
theorem xteaEncipherFollowsItsRule : Obligations.XteaEncipherFollowsItsRule :=
  fun key n v0 v1 => xteaEncFrom_eq_iterate key n 0 v0 v1

/-- Settles O26: the iteration starts from the sum `DELTA * n`, which is where enciphering ends. -/
theorem xteaDecipherFollowsItsRuleAndInverts : Obligations.XteaDecipherFollowsItsRuleAndInverts := by
  intro key n v0 v1
  have hsum : xteaDelta * BitVec.ofNat 32 n = BitVec.ofNat 32 (0x9E3779B9 * n) := (BitVec.ofNat_mul ..).symm
  refine ⟨?_, xteaD_xteaE key n v0 v1⟩
  rw [xteaD, xteaDecFrom_eq_iterate, hsum]

end Sys2Proof.Machine
end

section
/-! SUPPORT. The keys: the two commands that write them, and that nothing else in the engine, no TICK and no read
changes them (44_xtea R299 to R301). -/

namespace Sys2Proof.Machine

/-- A command that only writes the keys completes with the frame of the keys. -/
theorem Frame.keys_done (s : State) (cur old : Key) (valid : Bool) :
    Frame .none 0 [.keys] s (State.done { s with curKey := cur, oldKey := old, oldValid := valid }) :=
  Frame.of_complete rfl BitVec.or_zero.symm { SameHost.refl s with } (fun _ => rfl) (fun _ => rfl) (by simp)
    (fun _ => rfl) (fun n _ => by cases n <;> rfl) (fun _ _ => rfl) (fun _ _ => rfl)

/-- Settles O32: KEY_ROTATE has no check. -/
theorem keyRotateReplacesTheLowFragment : Obligations.KeyRotateReplacesTheLowFragment := by
  refine ⟨refEncoding_opcode .keyRotate, fun s => ⟨_, rfl, Frame.keys_done s _ _ _, fun _ _ => rfl, ?_, rfl, rfl⟩⟩
  intro j hj
  interval_cases j <;> rfl

/-- Settles O33: KEY_COMMIT has no check. -/
theorem keyCommitDisablesTheOldKey : Obligations.KeyCommitDisablesTheOldKey :=
  ⟨refEncoding_opcode .keyCommit, fun s => ⟨_, rfl, Frame.keys_done s _ _ _, rfl, rfl, rfl⟩⟩

/-! ### The engine -/

/-- The outcome is a next state with both keys of `s`. -/
inductive KeepsKeys (s : State) : Host.Outcome State Fault Refusal → Prop
  | next {t : State} (cur : t.curKey = s.curKey) (old : t.oldKey = s.oldKey) : KeepsKeys s (.next t)

section
variable {s t u : State} {p : Prop} [Decidable p]

theorem KeepsKeys.ite (ht : KeepsKeys s (.next t)) (hu : KeepsKeys s (.next u)) :
    KeepsKeys s (.next (if p then t else u)) := by
  split
  · exact ht
  · exact hu

/-- A check that raises an error when it fails, before the rest of the command. -/
theorem KeepsKeys.guard {e : ErrCode} (hu : KeepsKeys s (.next u)) :
    KeepsKeys s (.next (if p then s.raise e else u)) :=
  .ite (.next rfl rfl) hu

theorem KeepsKeys.setChan (s : State) (n : Chan) (c : Channel) : KeepsKeys s (.next (s.setChan n c).done) :=
  .next (State.setChan_curKey s n c) (State.setChan_oldKey s n c)

/-- A command that moves a channel and may raise its event (46_acknack R381). -/
theorem KeepsKeys.setChan_eventIf (cur : u.curKey = s.curKey) (old : u.oldKey = s.oldKey) (n : Chan) (c : Channel)
    (raised : Bool) : KeepsKeys s (.next ((u.setChan n c).eventIf n raised).done) := by
  have hcur := (State.setChan_curKey u n c).trans cur
  have hold := (State.setChan_oldKey u n c).trans old
  cases raised <;> exact .next hcur hold

end

theorem execArbStart_keepsKeys (n : Chan) (s : State) : KeepsKeys s (execArbStart n s) := by
  refine .guard ?_
  split
  · exact .next rfl rfl
  · exact .guard (.setChan s n _)

theorem execArbRespond_keepsKeys (n : Chan) (s : State) : KeepsKeys s (execArbRespond n s) :=
  .guard <| .guard <| .guard <|
    .setChan_eventIf (s := s) (u := { s with parse := { s.parse with valid := false } }) rfl rfl n _ _

/-- Every command but KEY_ROTATE keeps both keys: KEY_COMMIT writes OLD_VALID alone, and no other command
writes a key register. -/
theorem exec_keepsKeys {i : Instr} (hi : i ≠ .keyRotate) (s : State) : KeepsKeys s (exec i s) := by
  cases i with
  | keyRotate => exact absurd rfl hi
  | nop | pidInfo | keyCommit | nackFatal => exact .next rfl rfl
  | encode | crcCompute | crcFill | midNext => exact .guard (.next rfl rfl)
  | payEncode => exact .guard (.guard (.next rfl rfl))
  | ackParse => exact .guard (.guard (.guard (.next rfl rfl)))
  | crcCheck => exact .guard (.ite (.next rfl rfl) (.next rfl rfl))
  | decode =>
    refine .guard ?_
    split <;> exact .next rfl rfl
  | payDecode =>
    refine .guard (.guard ?_)
    split <;> exact .next rfl rfl
  | xteaEnc | xteaDec => exact .guard (.guard (.guard (.ite (.next rfl rfl) (.next rfl rfl))))
  | openPayload =>
    refine .guard (.guard (.guard (.ite (.ite (.next rfl rfl) (.next rfl rfl)) ?_)))
    split <;> exact .next rfl rfl
  | midValidate =>
    exact .guard (.ite (.next rfl rfl) (.ite (.next rfl rfl) (.ite (.next rfl rfl) (.ite (.next rfl rfl)
      (.next rfl rfl)))))
  | arbStart n => exact execArbStart_keepsKeys n s
  | arbResend n => exact .guard (.setChan s n _)
  | arbRespond n => exact execArbRespond_keepsKeys n s
  | arbAbort n => exact .guard (.setChan_eventIf rfl rfl n _ true)

/-! ### One step -/

/-- A key register of `t` differs from that of `s`. -/
def KeysDiffer (s t : State) : Prop := t.curKey ≠ s.curKey ∨ t.oldKey ≠ s.oldKey

theorem not_keysDiffer_of_eq {s t : State} (cur : t.curKey = s.curKey) (old : t.oldKey = s.oldKey) :
    ¬ KeysDiffer s t :=
  not_or.mpr ⟨not_not.mpr cur, not_not.mpr old⟩

theorem KeepsKeys.not_keysDiffer {s t : State} (h : KeepsKeys s (.next t)) : ¬ KeysDiffer s t := by
  cases h with
  | next cur old => exact not_keysDiffer_of_eq cur old

/-- The engine's turn changes a key by KEY_ROTATE alone. -/
theorem engineTurn_keysDiffer {s t : State} (h : engineTurn s = .next t) (hdiffer : KeysDiffer s t) :
    ∃ w, s.latch = some w ∧ decode w = .ok .keyRotate ∧ t.oldKey = s.curKey := by
  rcases engineTurn_cases h with ⟨rfl, -⟩ | ⟨w, i, hl, -, hd, hexec⟩ | ⟨w, e, -, -, -, rfl⟩
  · exact absurd hdiffer (not_keysDiffer_of_eq rfl rfl)
  · by_cases hi : i = .keyRotate
    · subst hi
      obtain rfl := Host.Outcome.next.inj hexec
      exact ⟨w, hl, hd, rfl⟩
    · have hkeeps : KeepsKeys s (.next t) := hexec ▸ exec_keepsKeys hi s
      exact absurd hdiffer hkeeps.not_keysDiffer
  · exact absurd hdiffer (not_keysDiffer_of_eq rfl rfl)

/-- The targets in which a write stores a key word are the offsets of the key registers. -/
theorem WindowMap.writeTarget_keysDiffer {off : Nat} {tgt : Target} (h : WindowMap off tgt) {s : State} {v : Word}
    (hdiffer : KeysDiffer s (s.writeTarget tgt v)) : 0x040 ≤ off ∧ off ≤ 0x05C := by
  cases h with
  | curKey0 | curKey1 | curKey2 | curKey3 | oldKey0 | oldKey1 | oldKey2 | oldKey3 => decide
  | _ => exact absurd hdiffer (not_keysDiffer_of_eq rfl rfl)

/-- A host write changes a key at the offset of a key register, with no command latched (10_state R47, R48,
70_reset_and_hazards R490). -/
theorem State.hostWrite_keysDiffer {s : State} {addr : BusAddr} {v : Word}
    (hdiffer : KeysDiffer s (s.hostWrite addr v)) :
    0x040 ≤ refOffset addr ∧ refOffset addr ≤ 0x05C ∧ s.latch = none := by
  have hl : s.latch = none := by
    by_contra hbusy
    obtain ⟨status, enable, hwrite⟩ := State.hostWrite_busy_frame hbusy addr v
    exact absurd hdiffer (hwrite ▸ not_keysDiffer_of_eq rfl rfl)
  have hstored {u : State} (h : s.hostWrite addr v = u) : KeysDiffer s u := h ▸ hdiffer
  rcases s.hostWrite_cases addr v with ⟨-, h⟩ | ⟨-, h⟩ | ⟨-, h⟩ | ⟨-, h⟩ | ⟨hg, -⟩
  · have haccept : s.hostWrite addr v = s.accept v := by simpa [State.busy, hl] using h
    exact absurd (hstored haccept) (not_keysDiffer_of_eq rfl rfl)
  · exact absurd (hstored h) (not_keysDiffer_of_eq rfl rfl)
  · exact absurd (hstored h) (not_keysDiffer_of_eq rfl rfl)
  · exact absurd (hstored h) (not_keysDiffer_of_eq rfl rfl)
  · obtain ⟨hlow, hhigh⟩ :=
      (windowMap_target addr).writeTarget_keysDiffer (hstored (State.hostWrite_guarded hl hg v))
    exact ⟨hlow, hhigh, hl⟩

/-- Settles O34, by the cases of one step. -/
theorem keysChangeOnlyByRotateResetOrHostWrite : Obligations.KeysChangeOnlyByRotateResetOrHostWrite := by
  intro s t hstep hkeys
  have hdiffer : KeysDiffer s t := hkeys
  rcases step_cases hstep with ⟨-, hturn⟩ | ⟨rest, -, hturn⟩ | ⟨addr, rest, -, rfl⟩ | ⟨addr, v, rest, hi, rfl⟩ |
    ⟨rest, -, rfl⟩ | ⟨level, rest, hi, rfl⟩
  · exact .inl (engineTurn_keysDiffer hturn hdiffer)
  · exact .inl (engineTurn_keysDiffer (s := { s with inputs := rest }) hturn hdiffer)
  · obtain ⟨word, count, hread⟩ := State.hostRead_frame { s with inputs := rest } addr
    rw [hread] at hdiffer
    exact absurd hdiffer (by split <;> exact not_keysDiffer_of_eq rfl rfl)
  · split at hdiffer
    · exact absurd hdiffer (not_keysDiffer_of_eq rfl rfl)
    · obtain ⟨hlow, hhigh, hl⟩ := State.hostWrite_keysDiffer (s := { s with inputs := rest }) hdiffer
      exact .inr (.inr ⟨addr, v, rest, hi, hlow, hhigh, hl⟩)
  · rw [State.tick_eq] at hdiffer
    exact absurd hdiffer (by split <;> exact not_keysDiffer_of_eq rfl rfl)
  · cases level with
    | true => exact .inr (.inl ⟨rest, hi, rfl, rfl⟩)
    | false => exact absurd hdiffer (not_keysDiffer_of_eq rfl rfl)

end Sys2Proof.Machine
end

section
/-! SUPPORT. A range of RAW_BUF whose blocks are replaced, by words and by bytes (44_xtea R292). -/

namespace Sys2Proof.Machine

/-! ### The blocks of a list of bytes -/

/-- The block function applied to the block that a list of bytes begins with. -/
def firstBlockMapped (f : Word → Word → Word × Word) (bs : List Byte) : Word × Word := f (be32 bs) (be32 (bs.drop 4))

/-- From byte `8 * j` on, the mapped blocks begin with the two words of block `j`. -/
theorem mapBlocks_drop (f : Word → Word → Word × Word) {n j : Nat} (hj : j < n) (bs : List Byte) :
    ∃ rest, (mapBlocks f n bs).drop (8 * j) =
      bytesOf (firstBlockMapped f (bs.drop (8 * j))).1 ++
        (bytesOf (firstBlockMapped f (bs.drop (8 * j))).2 ++ rest) := by
  induction j generalizing n bs with
  | zero =>
    obtain ⟨n, rfl⟩ := Nat.exists_eq_succ_of_ne_zero (Nat.ne_of_gt hj)
    exact ⟨mapBlocks f n (bs.drop 8), List.append_assoc ..⟩
  | succ j ih =>
    obtain ⟨n, rfl⟩ := Nat.exists_eq_succ_of_ne_zero (Nat.ne_zero_of_lt hj)
    obtain ⟨rest, hrest⟩ := ih (Nat.lt_of_succ_lt_succ hj) (bs.drop 8)
    refine ⟨rest, ?_⟩
    rw [List.drop_drop] at hrest
    rw [Nat.mul_succ, Nat.add_comm, ← hrest, ← List.drop_drop, mapBlocks, List.drop_left' (by simp)]

/-! ### The words of a range -/

/-- A word of a range of RAW_BUF is the word of the list of its bytes. -/
theorem State.be32_drop_rawRange (s : State) {a b i : Nat} (h : i + 4 ≤ b) :
    be32 ((s.rawRange a b).drop i) = s.bufferWord (0x800 + a + i) := by
  obtain ⟨c, rfl⟩ := Nat.exists_eq_add_of_le h
  rw [Nat.add_assoc, State.rawRange_add, List.drop_left' (State.rawRange_length ..), State.rawRange_add,
    Nat.add_assoc 0x800]
  rfl

/-- Block `j` of a range of RAW_BUF under a block function. -/
def State.mappedBlock (s : State) (f : Word → Word → Word × Word) (a j : Nat) : Word × Word :=
  f (s.bufferWord (0x800 + a + 8 * j)) (s.bufferWord (0x800 + a + 8 * j + 4))

theorem State.firstBlockMapped_drop_rawRange (s : State) (f : Word → Word → Word × Word) {a b j : Nat}
    (hj : j < b / 8) : firstBlockMapped f ((s.rawRange a b).drop (8 * j)) = s.mappedBlock f a j := by
  rw [firstBlockMapped, List.drop_drop, s.be32_drop_rawRange (by omega), s.be32_drop_rawRange (by omega)]
  rfl

/-- A range that holds the mapped blocks of another holds block `j` under the block function. -/
theorem State.bufferWord_of_rawRange_mapBlocks {s t : State} {f : Word → Word → Word × Word} {a b : Nat}
    (h : t.rawRange a b = mapBlocks f (b / 8) (s.rawRange a b)) {j : Nat} (hj : j < b / 8) :
    t.bufferWord (0x800 + a + 8 * j) = (s.mappedBlock f a j).1 ∧
      t.bufferWord (0x800 + a + 8 * j + 4) = (s.mappedBlock f a j).2 := by
  obtain ⟨rest, hrest⟩ := mapBlocks_drop f hj (s.rawRange a b)
  rw [← h, s.firstBlockMapped_drop_rawRange f hj] at hrest
  constructor
  · rw [← t.be32_drop_rawRange (b := b) (by omega), hrest, be32_bytesOf]
  · rw [Nat.add_assoc, ← t.be32_drop_rawRange (b := b) (by omega), ← List.drop_drop, hrest,
      List.drop_left' (bytesOf_length _), be32_bytesOf]

/-! ### The bytes of a range -/

/-- The two words of a block, byte by byte. -/
def blockByte (r : Word × Word) (i : Nat) : Byte := (if i < 4 then r.1 else r.2).extractLsb' (24 - 8 * (i % 4)) 8

theorem blockByte_eq (r : Word × Word) (rest : List Byte) {i : Nat} (hi : i < 8) :
    (bytesOf r.1 ++ (bytesOf r.2 ++ rest))[i]? = some (blockByte r i) := by
  interval_cases i <;> rfl

/-- Byte `i` of the mapped blocks of a range is byte `i % 8` of block `i / 8`. -/
theorem State.mapBlocks_rawRange (s : State) (f : Word → Word → Word × Word) {a b : Nat} (hb : b % 8 = 0) :
    mapBlocks f (b / 8) (s.rawRange a b) =
      (List.range b).map fun i => blockByte (s.mappedBlock f a (i / 8)) (i % 8) := by
  refine List.ext_getElem? fun i => ?_
  by_cases hi : i < b
  · have hj : i / 8 < b / 8 := by omega
    obtain ⟨rest, hrest⟩ := mapBlocks_drop f hj (s.rawRange a b)
    rw [s.firstBlockMapped_drop_rawRange f hj] at hrest
    calc (mapBlocks f (b / 8) (s.rawRange a b))[i]?
      _ = ((mapBlocks f (b / 8) (s.rawRange a b)).drop (8 * (i / 8)))[i % 8]? := by
        rw [List.getElem?_drop, Nat.div_add_mod]
      _ = some (blockByte (s.mappedBlock f a (i / 8)) (i % 8)) := by
        rw [hrest, blockByte_eq _ _ (Nat.mod_lt _ (by decide))]
      _ = _ := by rw [List.getElem?_map, List.getElem?_range hi, Option.map_some]
  · rw [List.getElem?_eq_none (by simp; omega), List.getElem?_eq_none (by simp; omega)]

end Sys2Proof.Machine
end

section
/-! SUPPORT. The statements about XTEA_ENC and XTEA_DEC (44_xtea R296, R297). -/

namespace Sys2Proof.Machine

/-! ### The operands -/

theorem State.key_eq_refKey (s : State) (k : KeySel) : s.key k = refKey s k := by
  cases k <;> rfl

theorem State.cycles_eq_refCycles (s : State) (m : BitVec 2) : s.cycles m = refCycles s m :=
  congrArg (m.toNat * ·) (if_congr BitVec.toNat_inj.symm rfl rfl)

section
variable {s : State} {a b : Nat} {m : BitVec 2} {k : KeySel}

/-- The checks on method and key, when they fail. -/
theorem methodChecks_fail (h : ¬ refMethodOk s m k) {x y : State} :
    (if s.methodRefused m then x else if s.keyRefused m k then x else y) = x := by
  by_cases hmethod : s.methodRefused m
  · exact if_pos hmethod
  · have hkey : s.keyRefused m k := by
      by_contra hkey
      simp only [State.methodRefused, State.keyRefused, not_and, Bool.not_eq_false] at hmethod hkey
      exact h ⟨hmethod, hkey⟩
    rw [if_neg hmethod, if_pos hkey]

/-- The range and the method of XTEA_ENC and XTEA_DEC fail a check. -/
theorem xteaChecks_fail (h : ¬ refBlocksOk a b ∨ ¬ refMethodOk s m k) {x y : State} :
    (if ¬ blockRangeOk a b then x else if s.methodRefused m then x else if s.keyRefused m k then x else y) = x := by
  by_cases hb : blockRangeOk a b
  · exact (if_neg (not_not.mpr hb)).trans (methodChecks_fail (h.resolve_left (not_not.mpr hb)))
  · exact if_pos hb

/-! ### The next states -/

/-- The state after the blocks of a range are replaced in place. -/
def State.blocksMapped (s : State) (a b : Nat) (f : Word → Word → Word × Word) : State :=
  (s.writeBytes (0x800 + a) (mapBlocks f (b / 8) (s.rawRange a b))).done

theorem State.enciphered_eq_blocksMapped (s : State) (a b : Nat) (m : BitVec 2) (k : KeySel) :
    s.enciphered a b m k = s.blocksMapped a b (xteaE (s.key k) (s.cycles m)) := rfl

theorem exec_xteaEnc_badParam (h : ¬ refBlocksOk a b ∨ ¬ refMethodOk s m k) :
    exec (.xteaEnc a b m k) s = .next (s.raise .badParam) :=
  congrArg Host.Outcome.next (xteaChecks_fail h)

theorem exec_xteaDec_badParam (h : ¬ refBlocksOk a b ∨ ¬ refMethodOk s m k) :
    exec (.xteaDec a b m k) s = .next (s.raise .badParam) :=
  congrArg Host.Outcome.next (xteaChecks_fail h)

theorem exec_xteaDec_plain (hb : refBlocksOk a b) (hm : refMethodOk s m k) (hzero : m = 0) :
    exec (.xteaDec a b m k) s = .next s.done :=
  congrArg Host.Outcome.next ((xteaChecks_pass hb hm).trans (if_pos hzero))

theorem exec_xteaDec_done (hb : refBlocksOk a b) (hm : refMethodOk s m k) (hne : m ≠ 0) :
    exec (.xteaDec a b m k) s = .next (s.blocksMapped a b (xteaD (s.key k) (s.cycles m))) :=
  congrArg Host.Outcome.next ((xteaChecks_pass hb hm).trans (if_neg hne))

/-! ### What the replaced blocks read -/

theorem refBlocksOk.length_mapBlocks (hb : refBlocksOk a b) (f : Word → Word → Word × Word) (bs : List Byte) :
    (mapBlocks f (b / 8) bs).length = b := by
  obtain ⟨-, hmod, -⟩ := hb
  rw [mapBlocks_length]
  omega

theorem State.blocksMapped_rawRange (s : State) (hb : refBlocksOk a b) (f : Word → Word → Word × Word) :
    (s.blocksMapped a b f).rawRange a b = mapBlocks f (b / 8) (s.rawRange a b) :=
  s.rawRange_writeBytes a (hb.length_mapBlocks f _)

/-- Each block of the range holds its two words under the block function. -/
theorem State.blocksMapped_bufferWord (s : State) (hb : refBlocksOk a b) (f : Word → Word → Word × Word) {j : Nat}
    (hj : j < b / 8) :
    (s.blocksMapped a b f).bufferWord (0x800 + a + 8 * j) = (s.mappedBlock f a j).1 ∧
      (s.blocksMapped a b f).bufferWord (0x800 + a + 8 * j + 4) = (s.mappedBlock f a j).2 :=
  State.bufferWord_of_rawRange_mapBlocks (s.blocksMapped_rawRange hb f) hj

/-- A command that stores bytes completes with the frame of those bytes. -/
theorem Frame.writeBytes_done (s : State) (base : Nat) {vs : List Byte} {n : Nat} (hn : vs.length = n) :
    Frame .none 0 [.bytes base n] s (s.writeBytes base vs).done :=
  Frame.of_complete rfl BitVec.or_zero.symm { SameHost.refl s with } (fun _ => rfl) (fun _ => rfl)
    (fun _ => ⟨rfl, rfl, rfl⟩) (fun _ => rfl) (fun c _ => by cases c <;> rfl) (fun _ _ => rfl)
    (fun _ hx => s.readByte_writeBytes_outside (hn ▸ hx base n (by simp)))

theorem Frame.blocksMapped (s : State) (hb : refBlocksOk a b) (f : Word → Word → Word × Word) :
    Frame .none 0 [.bytes (0x800 + a) b] s (s.blocksMapped a b f) :=
  Frame.writeBytes_done s _ (hb.length_mapBlocks f _)

end

/-- Settles O27: a range of whole blocks is replaced block by block. -/
theorem xteaEncEnciphersEachBlock : Obligations.XteaEncEnciphersEachBlock := by
  intro s a b m k
  refine ⟨refEncoding_opcode (.xteaEnc a b m k), fun hbad => ?_, fun hb hm hzero => ?_, fun hb hm hne => ?_⟩
  · exact ⟨_, exec_xteaEnc_badParam hbad, Frame.raise s _⟩
  · exact ⟨_, exec_xteaEnc_plain hb hm hzero, Frame.done s⟩
  · refine ⟨_, exec_xteaEnc_done hb hm hne, Frame.blocksMapped s hb _, fun j hj => ?_⟩
    rw [← s.key_eq_refKey, ← s.cycles_eq_refCycles]
    exact s.blocksMapped_bufferWord hb _ hj

/-- Settles O28, as O27 with the decipher function. -/
theorem xteaDecDeciphersEachBlock : Obligations.XteaDecDeciphersEachBlock := by
  intro s a b m k
  refine ⟨refEncoding_opcode (.xteaDec a b m k), fun hbad => ?_, fun hb hm hzero => ?_, fun hb hm hne => ?_⟩
  · exact ⟨_, exec_xteaDec_badParam hbad, Frame.raise s _⟩
  · exact ⟨_, exec_xteaDec_plain hb hm hzero, Frame.done s⟩
  · refine ⟨_, exec_xteaDec_done hb hm hne, Frame.blocksMapped s hb _, fun j hj => ?_⟩
    rw [← s.key_eq_refKey, ← s.cycles_eq_refCycles]
    exact s.blocksMapped_bufferWord hb _ hj

/-- Two states with the same bytes in a range and outside it have the same bytes. -/
theorem State.readByte_eq_of_rawRange_eq {s t : State} {a b : Nat} (hrange : t.rawRange a b = s.rawRange a b)
    (houtside : ∀ x, x < 0x800 + a ∨ 0x800 + a + b ≤ x → t.readByte x = s.readByte x) (x : Nat) :
    t.readByte x = s.readByte x := by
  by_cases hx : x < 0x800 + a ∨ 0x800 + a + b ≤ x
  · exact houtside x hx
  · obtain ⟨i, rfl⟩ := Nat.exists_eq_add_of_le (show 0x800 + a ≤ x by omega)
    have hi : i < (s.rawRange a b).length := by
      rw [State.rawRange_length]
      omega
    exact (State.readByte_of_rawRange hrange hi).trans (s.rawRange_getElem a b i hi)

/-- Settles O29: the deciphered blocks of the enciphered range are the range, and neither command writes
outside it. -/
theorem xteaDecUndoesXteaEnc : Obligations.XteaDecUndoesXteaEnc := by
  intro s a b m k hb hm
  by_cases hzero : m = 0
  · exact ⟨_, _, exec_xteaEnc_plain hb hm hzero, exec_xteaDec_plain (s := s.done) hb hm hzero, rfl, fun _ => rfl⟩
  · refine ⟨_, _, exec_xteaEnc_done hb hm hzero,
      exec_xteaDec_done (s := s.enciphered a b m k) hb hm hzero, rfl, ?_⟩
    have hrange := State.blocksMapped_rawRange (s.enciphered a b m k) hb (xteaD (s.key k) (s.cycles m))
    rw [s.mapBlocks_enciphered m k hb] at hrange
    refine State.readByte_eq_of_rawRange_eq hrange fun x hx => ?_
    have houtside (t : State) (f : Word → Word → Word × Word) : (t.blocksMapped a b f).readByte x = t.readByte x :=
      t.readByte_writeBytes_outside (by rwa [hb.length_mapBlocks])
    exact (houtside _ _).trans (houtside s _)

end Sys2Proof.Machine
end

section
/-! SUPPORT. The CRC check of an opened payload, and what OPEN_PAYLOAD does by the keys that open it (44_xtea
R298). -/

namespace Sys2Proof.Machine

/-! ### The payload under a key -/

/-- `crc_ok` of a list of bytes, as a comparison of numbers. -/
theorem State.payloadCrcOk_iff {s : State} (horder : s.crcOrder.toNat ≤ 8) {b : Nat} (hb : b ≠ 0) (p : Nat → Byte) :
    s.payloadCrcOk ((List.range b).map p) = true ↔ refPayloadOk s b p := by
  obtain ⟨n, rfl⟩ := Nat.exists_eq_succ_of_ne_zero hb
  have hcrc (bytes : List Byte) : (s.crc bytes s.crcInit).toNat =
      refCrc s.crcOrder.toNat s.crcPoly.toNat s.crcInit.toNat bytes :=
    State.crc_toNat (horder.trans (by decide)) bytes .crcInit
  rw [List.range_succ_eq_map, List.map_cons, List.map_map, State.payloadCrcOk, beq_iff_eq, ← BitVec.toNat_inj,
    BitVec.toNat_setWidth_of_le (by decide), List.tail_cons, hcrc]
  rfl

/-- The bytes of a range deciphered under a key (44_xtea R298). -/
def State.plaintext (s : State) (a b : Nat) (m : BitVec 2) (k : KeySel) : List Byte :=
  mapBlocks (xteaD (s.key k) (s.cycles m)) (b / 8) (s.rawRange a b)

/-- OPEN_PAYLOAD accepts the plaintext under a key (44_xtea R298). -/
def State.opensUnder (s : State) (a b : Nat) (m : BitVec 2) (k : KeySel) : Bool :=
  s.payloadCrcOk (s.plaintext a b m k)

/-- The other key is tried too when the selected one fails (44_xtea R298). -/
abbrev State.mayFallBack (s : State) (k : KeySel) : Prop := k = .old ∨ s.oldValid = true

section
variable {s : State} {a b : Nat} {m : BitVec 2} {k : KeySel}

theorem State.plaintext_eq (s : State) (hb : refBlocksOk a b) (m : BitVec 2) (k : KeySel) :
    s.plaintext a b m k = (List.range b).map (refPlainByte s a m k) := by
  obtain ⟨-, hmod, -⟩ := hb
  rw [State.plaintext, s.mapBlocks_rawRange _ hmod, s.key_eq_refKey, s.cycles_eq_refCycles]
  refine List.map_congr_left fun i _ => ?_
  have hbyte : i % 8 % 4 = i % 4 := Nat.mod_mod_of_dvd i (by decide)
  rw [blockByte, hbyte]
  rfl

theorem State.opensUnder_iff (hb : refBlocksOk a b) (horder : s.crcOrder.toNat ≤ 8) (k : KeySel) :
    s.opensUnder a b m k = true ↔ refPayloadOk s b (refPlainByte s a m k) := by
  rw [State.opensUnder, s.plaintext_eq hb]
  exact State.payloadCrcOk_iff horder hb.left _

/-! ### The keys in order -/

theorem State.plaintext_of_length (s : State) (a b : Nat) (m : BitVec 2) (k : KeySel) :
    mapBlocks (xteaD (s.key k) (s.cycles m)) ((s.rawRange a b).length / 8) (s.rawRange a b) = s.plaintext a b m k := by
  rw [State.rawRange_length, State.plaintext]

theorem State.openUnder_cons (s : State) (m : BitVec 2) (k : KeySel) (a b t : Nat) (ks : List KeySel) :
    s.openUnder m (s.rawRange a b) t (k :: ks) =
      if s.opensUnder a b m k then some (t, k, s.plaintext a b m k)
      else s.openUnder m (s.rawRange a b) (t + 1) ks := by
  rw [State.openUnder, State.plaintext_of_length]
  rfl

/-- The other key comes second, where it may be tried (44_xtea R298). -/
theorem State.openUnder_second (hfirst : ¬ s.opensUnder a b m k) (hfall : s.mayFallBack k)
    (hsecond : s.opensUnder a b m (otherKey k)) :
    s.openUnder m (s.rawRange a b) 0 (s.keyOrder k) = some (1, otherKey k, s.plaintext a b m (otherKey k)) := by
  rw [State.keyOrder, if_pos hfall, State.openUnder_cons, if_neg hfirst, State.openUnder_cons, if_pos hsecond]

/-- No key that may be tried opens the payload (44_xtea R298). -/
theorem State.openUnder_none (hfirst : ¬ s.opensUnder a b m k)
    (hsecond : ¬ (s.mayFallBack k ∧ s.opensUnder a b m (otherKey k))) :
    s.openUnder m (s.rawRange a b) 0 (s.keyOrder k) = none := by
  rw [State.keyOrder]
  split
  · next hfall =>
    rw [State.openUnder_cons, if_neg hfirst, State.openUnder_cons, if_neg fun h => hsecond ⟨hfall, h⟩]
    rfl
  · rw [State.openUnder_cons, if_neg hfirst]
    rfl

/-! ### The next states -/

/-- The state after OPEN_PAYLOAD opened the range under `key`, the key in place `t` of those tried. -/
def State.payloadOpened (s : State) (a b : Nat) (m : BitVec 2) (t : Nat) (key : KeySel) : State :=
  ((s.writeBytes (0x800 + a) (s.plaintext a b m key)).setResult0
    ((m ++ BitVec.ofNat 1 t ++ BitVec.ofBool key.toK).zeroExtend 32)).done

theorem exec_openPayload_badParam (h : ¬ (refBlocksOk a b ∧ s.crcOrder.toNat ≤ 8 ∧ refMethodOk s m k)) :
    exec (.openPayload a b m k) s = .next (s.raise .badParam) := by
  refine congrArg Host.Outcome.next ?_
  by_cases hrange : ¬ blockRangeOk a b ∨ ¬ s.storedCrcOk
  · exact if_pos hrange
  · have ⟨hb, horder⟩ := not_or.mp hrange
    exact (if_neg hrange).trans (methodChecks_fail fun hm => h ⟨not_not.mp hb, not_not.mp horder, hm⟩)

section
variable (hb : refBlocksOk a b) (horder : s.crcOrder.toNat ≤ 8) (hm : refMethodOk s m k)
include hb horder hm

theorem exec_openPayload_plain_crcFail (hzero : m = 0) (hcrc : ¬ s.payloadCrcOk (s.rawRange a b)) :
    exec (.openPayload a b m k) s = .next (s.raise .crcFail) :=
  congrArg Host.Outcome.next ((openChecks_pass hb horder hm).trans ((if_pos hzero).trans (if_neg hcrc)))

theorem exec_openPayload_opened (hne : m ≠ 0) {t : Nat} {key : KeySel}
    (hopen : s.openUnder m (s.rawRange a b) 0 (s.keyOrder k) = some (t, key, s.plaintext a b m key)) :
    exec (.openPayload a b m k) s = .next (s.payloadOpened a b m t key) := by
  refine congrArg Host.Outcome.next ((openChecks_pass hb horder hm).trans ((if_neg hne).trans ?_))
  rw [hopen]
  rfl

theorem exec_openPayload_crcFail (hne : m ≠ 0)
    (hopen : s.openUnder m (s.rawRange a b) 0 (s.keyOrder k) = none) :
    exec (.openPayload a b m k) s = .next (s.raise .crcFail) := by
  refine congrArg Host.Outcome.next ((openChecks_pass hb horder hm).trans ((if_neg hne).trans ?_))
  rw [hopen]

end

/-! ### What the opened payload reads -/

theorem refBlocksOk.length_plaintext (hb : refBlocksOk a b) (s : State) (m : BitVec 2) (k : KeySel) :
    (s.plaintext a b m k).length = b :=
  hb.length_mapBlocks _ _

theorem State.payloadOpened_readByte (s : State) (hb : refBlocksOk a b) (m : BitVec 2) (t : Nat) (key : KeySel)
    {i : Nat} (hi : i < b) : (s.payloadOpened a b m t key).readByte (0x800 + a + i) = refPlainByte s a m key i := by
  have hlen : i < (s.plaintext a b m key).length := by rwa [hb.length_plaintext]
  refine (s.readByte_writeBytes_inside hlen).trans ?_
  simp only [s.plaintext_eq hb, List.getElem_map, List.getElem_range]

/-- RESULT0 of OPEN_PAYLOAD: METHOD, FALLBACK and KEY_USED (44_xtea R298). -/
theorem State.payloadOpened_result0_toNat (s : State) (a b : Nat) (m : BitVec 2) {t : Nat} (ht : t < 2)
    (key : KeySel) :
    (s.payloadOpened a b m t key).result0.toNat = 4 * m.toNat + 2 * t + if key = .old then 1 else 0 := by
  have hkey : key.toK.toNat = if key = .old then 1 else 0 := by cases key <;> rfl
  have hreport : (m ++ BitVec.ofNat 1 t ++ BitVec.ofBool key.toK).toNat = 4 * m.toNat + 2 * t + key.toK.toNat := by
    rw [toNat_append_eq_add, toNat_append_eq_add, BitVec.toNat_ofNat, BitVec.toNat_ofBool]
    omega
  rw [← hkey, ← hreport]
  exact toNat_zeroExtend_word (by decide) _

theorem Frame.payloadOpened (s : State) (hb : refBlocksOk a b) (m : BitVec 2) (t : Nat) (key : KeySel) :
    Frame .none 0 [.result0, .bytes (0x800 + a) b] s (s.payloadOpened a b m t key) :=
  Frame.writeBytes_setResult0_done s _ (hb.length_plaintext s m key) _

end

theorem otherKey_eq_ite (k : KeySel) : otherKey k = if k = .current then .old else .current := by
  cases k <;> rfl

/-- Settles O30: the first key of the order that opens the payload decides the outcome. -/
theorem openPayloadTriesTheKeysInOrder : Obligations.OpenPayloadTriesTheKeysInOrder := by
  intro s a b m k _ legal other mayFallBack opens opened
  have hother : otherKey k = other := otherKey_eq_ite k
  have hopens (h : legal) (key : KeySel) : s.opensUnder a b m key = true ↔ opens key :=
    State.opensUnder_iff h.left h.right.left key
  have hplain (h : legal) : s.payloadCrcOk (s.rawRange a b) = true ↔
      refPayloadOk s b (fun i => s.readByte (0x800 + a + i)) :=
    State.payloadCrcOk_iff h.right.left h.left.left _
  have hopened (h : legal) (hne : m ≠ 0) {t : Nat} (ht : t < 2) {key : KeySel}
      (hopen : s.openUnder m (s.rawRange a b) 0 (s.keyOrder k) = some (t, key, s.plaintext a b m key)) :
      ∃ u, opened key t u := by
    obtain ⟨hb, horder, hm⟩ := h
    exact ⟨_, exec_openPayload_opened hb horder hm hne hopen, Frame.payloadOpened s hb m t key,
      fun _ hi => s.payloadOpened_readByte hb m t key hi, s.payloadOpened_result0_toNat a b m ht key⟩
  refine ⟨refEncoding_opcode (.openPayload a b m k), fun hbad => ?_, fun h hzero hcrc => ?_,
    fun h hzero hcrc => ?_, fun h hne hfirst => ?_, fun h hne hfirst hfall hsecond => ?_,
    fun h hne hfirst hsecond => ?_⟩
  · exact ⟨_, exec_openPayload_badParam hbad, Frame.raise s _⟩
  · obtain ⟨hb, horder, hm⟩ := h
    exact ⟨_, exec_openPayload_plain hb horder hm hzero ((hplain ⟨hb, horder, hm⟩).mpr hcrc),
      Frame.setResult0_done s 0, rfl⟩
  · obtain ⟨hb, horder, hm⟩ := h
    exact ⟨_, exec_openPayload_plain_crcFail hb horder hm hzero ((hplain ⟨hb, horder, hm⟩).not.mpr hcrc),
      Frame.raise s _⟩
  · exact hopened h hne (by decide) (State.openUnder_first (s.plaintext_of_length a b m k) ((hopens h k).mpr hfirst))
  · rw [← hother] at hsecond ⊢
    exact hopened h hne (by decide)
      (State.openUnder_second ((hopens h k).not.mpr hfirst) hfall ((hopens h _).mpr hsecond))
  · have hnone := State.openUnder_none ((hopens h k).not.mpr hfirst) (by rwa [hother, hopens h])
    obtain ⟨hb, horder, hm⟩ := h
    exact ⟨_, exec_openPayload_crcFail hb horder hm hne hnone, Frame.raise s _⟩

end Sys2Proof.Machine
end

section
/-! SUPPORT. The two message-ID commands and the statements about them (45_msgid). -/

namespace Sys2Proof.Machine

/-! ### Message IDs as numbers -/

theorem msgId_succ_toNat (i : MsgId) : (i + 1).toNat = (i.toNat + 1) % 4096 := BitVec.toNat_add i 1

theorem State.argMsgId_eq_ofNat (s : State) : s.argMsgId = BitVec.ofNat 12 (s.arg0.toNat % 4096) :=
  BitVec.eq_of_toNat_eq (by simp [State.argMsgId, BitVec.extractLsb'_toNat])

theorem State.argMsgId_eq_iff (s : State) (i : MsgId) : s.argMsgId = i ↔ s.arg0.toNat % 4096 = i.toNat := by
  rw [s.argMsgId_eq_ofNat, ← BitVec.toNat_inj, BitVec.toNat_ofNat, Nat.mod_mod]

theorem State.argMsgId_eq_succ_iff (s : State) (i : MsgId) :
    s.argMsgId = i + 1 ↔ s.arg0.toNat % 4096 = (i.toNat + 1) % 4096 := by
  rw [s.argMsgId_eq_iff, msgId_succ_toNat]

/-! ### A command that stores one slot -/

/-- The slot after its next outbound ID is taken (45_msgid R342). -/
def MidSlot.advanced (d : MidSlot) : MidSlot := { d with txid := d.txid + 1 }

/-- The slot after the received ID `i` is accepted (45_msgid R343). -/
def MidSlot.accepting (d : MidSlot) (i : MsgId) : MidSlot := { d with last := i, valid := true }

/-- The completion of a command that stores slot `a` and reports `v` in RESULT0. -/
def State.slotReported (s : State) (a : Nat) (d : MidSlot) (v : Word) : State :=
  ((s.setMid a d).setResult0 v).done

section
variable (s : State) (a : Nat) (d : MidSlot) (v : Word)

theorem Frame.slotReported : Frame .none 0 [.result0, .slot a] s (s.slotReported a d v) :=
  Frame.of_complete rfl BitVec.or_zero.symm { SameHost.refl s with } (by simp) (fun _ => rfl)
    (fun _ => ⟨rfl, rfl, rfl⟩) (fun _ => rfl) (fun n _ => by cases n <;> rfl)
    (fun _ hk => s.midSlot_setMid_ne d (by rintro rfl; simp at hk)) (fun _ _ => rfl)

variable {s a}

theorem State.slotReported_midSlot (hmid : MidTable.wf s.mid = true) : (s.slotReported a d v).midSlot a = d :=
  s.midSlot_setMid_self a d hmid

theorem MidTable.wf_slotReported (ha : a < Config.nDev) (hmid : MidTable.wf s.mid = true) :
    MidTable.wf (s.slotReported a d v).mid = true :=
  MidTable.wf_setMid d ha hmid

end

/-! ### MID_NEXT -/

/-- The state after MID_NEXT on slot `a`. -/
def State.idTaken (s : State) (a : Nat) : State :=
  s.slotReported a (s.midSlot a).advanced ((s.midSlot a).txid.zeroExtend 32)

theorem State.idTaken_result0_toNat (s : State) (a : Nat) :
    (s.idTaken a).result0.toNat = (s.midSlot a).txid.toNat :=
  toNat_zeroExtend_word (by decide) _

section
variable {s : State} {a : Nat}

theorem State.idTaken_midSlot (hmid : MidTable.wf s.mid = true) :
    (s.idTaken a).midSlot a = (s.midSlot a).advanced :=
  State.slotReported_midSlot _ _ hmid

theorem State.idTaken_txid_toNat (hmid : MidTable.wf s.mid = true) :
    ((s.idTaken a).midSlot a).txid.toNat = ((s.midSlot a).txid.toNat + 1) % 4096 := by
  rw [State.idTaken_midSlot hmid]
  exact msgId_succ_toNat _

theorem exec_midNext_badParam (ha : Config.nDev ≤ a) : exec (.midNext a) s = .next (s.raise .badParam) :=
  congrArg Host.Outcome.next (if_pos ha)

theorem exec_midNext_done (ha : a < Config.nDev) : exec (.midNext a) s = .next (s.idTaken a) :=
  congrArg Host.Outcome.next (if_neg ha.not_ge)

theorem midNextRun_succ_results {t : State} (h : exec (.midNext a) s = .next t) (n : Nat) :
    (midNextRun a (n + 1) s).2 = t.result0 :: (midNextRun a n t).2 := by
  rw [midNextRun, h]

end

/-- Settles O35. -/
theorem midNextTakesTheNextId : Obligations.MidNextTakesTheNextId := by
  intro s a hmid
  refine ⟨refEncoding_opcode (.midNext a), fun ha => ?_, fun ha => ?_⟩
  · exact ⟨_, exec_midNext_badParam ha, Frame.raise s _⟩
  · refine ⟨_, exec_midNext_done ha, Frame.slotReported s a _ _, s.idTaken_result0_toNat a,
      State.idTaken_txid_toNat hmid, ?_⟩
    rw [State.idTaken_midSlot hmid]
    exact ⟨rfl, rfl, rfl⟩

/-- Settles O36, by induction on the number of commands: the first takes TXID, and the others run from a slot
whose TXID is one more. -/
theorem midNextIdsAreConsecutive : Obligations.MidNextIdsAreConsecutive := by
  intro s a n ha hmid
  induction n generalizing s with
  | zero => rfl
  | succ n ih =>
    have hrest := ih (s.idTaken a) (MidTable.wf_slotReported _ _ ha hmid)
    have hfirst : (s.midSlot a).txid.toNat = ((s.midSlot a).txid.toNat + 0) % 4096 :=
      (Nat.mod_eq_of_lt (s.midSlot a).txid.isLt).symm
    have hshift (i : Nat) :
        (((s.midSlot a).txid.toNat + 1) % 4096 + i) % 4096 = ((s.midSlot a).txid.toNat + (i + 1)) % 4096 := by
      omega
    rw [midNextRun_succ_results (exec_midNext_done ha), List.map_cons, hrest, s.idTaken_result0_toNat,
      State.idTaken_txid_toNat hmid, List.range_succ_eq_map, List.map_cons, List.map_map, ← hfirst]
    exact congrArg _ (List.map_congr_left fun i _ => hshift i)

/-! ### MID_VALIDATE -/

section
variable {s : State} {a : Nat}

theorem exec_midValidate_badParam (ha : Config.nDev ≤ a) :
    exec (.midValidate a) s = .next (s.raise .badParam) :=
  congrArg Host.Outcome.next (if_pos ha)

/-- ACCEPT_FIRST: the slot holds no ID yet. -/
theorem exec_midValidate_first (ha : a < Config.nDev) (hvalid : (s.midSlot a).valid = false) :
    exec (.midValidate a) s = .next (s.slotReported a ((s.midSlot a).accepting s.argMsgId) 1) :=
  congrArg Host.Outcome.next ((if_neg ha.not_ge).trans (if_pos hvalid))

/-- On a slot that holds an ID the received one is compared with LAST and LAST + 1, and STRICT decides on every
other (45_msgid R343). -/
theorem exec_midValidate_valid (ha : a < Config.nDev) (hvalid : (s.midSlot a).valid = true) :
    exec (.midValidate a) s = .next
      (if s.argMsgId = (s.midSlot a).last then (s.setResult0 3).done
      else if s.argMsgId = (s.midSlot a).last + 1 then
        s.slotReported a ((s.midSlot a).accepting s.argMsgId) 2
      else if (s.midSlot a).strict = true then (s.setResult0 4).raise .badMsgId
      else s.slotReported a ((s.midSlot a).accepting s.argMsgId) 5) := by
  have hstays : (s.midSlot a).accepting s.argMsgId = { s.midSlot a with last := s.argMsgId } := by
    rw [MidSlot.accepting, ← hvalid]
  rw [hstays]
  exact congrArg Host.Outcome.next ((if_neg ha.not_ge).trans (if_neg (by simp [hvalid])))

theorem exec_midValidate_duplicate (ha : a < Config.nDev) (hvalid : (s.midSlot a).valid = true)
    (hid : s.arg0.toNat % 4096 = (s.midSlot a).last.toNat) :
    exec (.midValidate a) s = .next (s.setResult0 3).done := by
  rw [exec_midValidate_valid ha hvalid, if_pos ((s.argMsgId_eq_iff _).mpr hid)]

theorem exec_midValidate_next (ha : a < Config.nDev) (hvalid : (s.midSlot a).valid = true)
    (hid : s.arg0.toNat % 4096 = ((s.midSlot a).last.toNat + 1) % 4096) :
    exec (.midValidate a) s = .next (s.slotReported a ((s.midSlot a).accepting s.argMsgId) 2) := by
  have hne : s.arg0.toNat % 4096 ≠ (s.midSlot a).last.toNat := by omega
  rw [exec_midValidate_valid ha hvalid, if_neg ((s.argMsgId_eq_iff _).not.mpr hne),
    if_pos ((s.argMsgId_eq_succ_iff _).mpr hid)]

section
variable (ha : a < Config.nDev) (hvalid : (s.midSlot a).valid = true)
  (hlast : s.arg0.toNat % 4096 ≠ (s.midSlot a).last.toNat)
  (hnext : s.arg0.toNat % 4096 ≠ ((s.midSlot a).last.toNat + 1) % 4096)
include ha hvalid hlast hnext

theorem exec_midValidate_reject (hstrict : (s.midSlot a).strict = true) :
    exec (.midValidate a) s = .next ((s.setResult0 4).raise .badMsgId) := by
  rw [exec_midValidate_valid ha hvalid, if_neg ((s.argMsgId_eq_iff _).not.mpr hlast),
    if_neg ((s.argMsgId_eq_succ_iff _).not.mpr hnext), if_pos hstrict]

theorem exec_midValidate_lenient (hstrict : (s.midSlot a).strict = false) :
    exec (.midValidate a) s = .next (s.slotReported a ((s.midSlot a).accepting s.argMsgId) 5) := by
  rw [exec_midValidate_valid ha hvalid, if_neg ((s.argMsgId_eq_iff _).not.mpr hlast),
    if_neg ((s.argMsgId_eq_succ_iff _).not.mpr hnext), if_neg (by simp [hstrict])]

end

end

/-- REJECT changes RESULT0 alone beside its completion. -/
theorem Frame.setResult0_badMsgId (s : State) (v : Word) :
    Frame .badMsgId 0 [.result0] s ((s.setResult0 v).raise .badMsgId) :=
  Frame.raise_results s .badMsgId (r1 := s.result1) (by simp) (fun _ => rfl)

/-- Settles O37: the three accepting outcomes store the same slot and differ in their code. -/
theorem midValidateClassifiesTheId : Obligations.MidValidateClassifiesTheId := by
  intro s a hmid i d accepted
  have haccepted {code : Nat} {v : Word} (hv : v.toNat = code)
      (hexec : exec (.midValidate a) s = .next (s.slotReported a (d.accepting s.argMsgId) v)) : accepted code := by
    refine ⟨_, hexec, Frame.slotReported s a _ v, hv, ?_⟩
    rw [State.slotReported_midSlot _ _ hmid, s.argMsgId_eq_ofNat, MidSlot.accepting]
  refine ⟨refEncoding_opcode (.midValidate a), fun ha => ?badParam, fun ha hvalid => ?first,
    fun ha hvalid hid => ?duplicate, fun ha hvalid hid => ?next, fun ha hvalid hlast hnext hstrict => ?reject,
    fun ha hvalid hlast hnext hstrict => ?lenient⟩
  case badParam => exact ⟨_, exec_midValidate_badParam ha, Frame.raise s _⟩
  case first => exact haccepted rfl (exec_midValidate_first ha hvalid)
  case duplicate => exact ⟨_, exec_midValidate_duplicate ha hvalid hid, Frame.setResult0_done s 3, rfl⟩
  case next => exact haccepted rfl (exec_midValidate_next ha hvalid hid)
  case reject =>
    exact ⟨_, exec_midValidate_reject ha hvalid hlast hnext hstrict, Frame.setResult0_badMsgId s 4, rfl⟩
  case lenient => exact haccepted rfl (exec_midValidate_lenient ha hvalid hlast hnext hstrict)

/-- Settles O38: modulo 4096 an ID `LAST + k` is LAST for `k = 0`, and neither LAST nor LAST + 1 for
`2 ≤ k ≤ 4095`. -/
theorem strictSlotRejectsReplays : Obligations.StrictSlotRejectsReplays := by
  intro s a k ha hvalid hstrict hid
  have hlt : (s.midSlot a).last.toNat < 4096 := (s.midSlot a).last.isLt
  refine ⟨fun hk => ?_, fun hk hk' => ?_⟩
  · have hlast : s.arg0.toNat % 4096 = (s.midSlot a).last.toNat := by omega
    exact ⟨_, exec_midValidate_duplicate ha hvalid hlast, Frame.setResult0_done s 3, rfl⟩
  · have hlast : s.arg0.toNat % 4096 ≠ (s.midSlot a).last.toNat := by omega
    have hnext : s.arg0.toNat % 4096 ≠ ((s.midSlot a).last.toNat + 1) % 4096 := by omega
    exact ⟨_, exec_midValidate_reject ha hvalid hlast hnext hstrict, Frame.setResult0_badMsgId s 4, rfl⟩

end Sys2Proof.Machine
end

section
/-! SUPPORT. The channel states the arbiter's commands leave, and what every such command writes beside its
completion (46_acknack R375 to R378). -/

namespace Sys2Proof.Machine

theorem refInProgress_iff {c : Channel} : refInProgress c ↔ c.state.inProgress = true := by
  unfold refInProgress
  cases c.state <;> simp [ChanState.inProgress]

theorem intArb_eq_refEvent (n : Chan) : intArb n = refEvent n := by
  cases n <;> rfl

/-- The channel after ARB_START (46_acknack R375). -/
def Channel.started (c : Channel) (id : MsgId) (ty : TxType) : Channel :=
  { c with
    expId := id, txType := ty, attempt := 1, result := .none, cause := .none, handle := 0, reason := 0,
    remain := c.timeout 1, state := .wait }

/-- The channel after ARB_RESEND (46_acknack R376). -/
def Channel.resent (c : Channel) : Channel :=
  { c with attempt := c.attempt + 1, remain := c.timeout (c.attempt + 1).toNat, state := .wait }

/-- The channel after the fields of a response are taken, before its transition (46_acknack R377). -/
def Channel.taking (c : Channel) (p : Parse) : Channel :=
  { c with handle := p.handle, reason := p.reason, toBase := adjustedBase c.toBase p.handle p.value }

/-- The completion of a command that leaves `p` in the parse latch and `c` in channel `n`, and raises the
channel's event when `raised` (46_acknack R381). -/
def State.channelMoved (s : State) (p : Parse) (n : Chan) (c : Channel) (raised : Bool) : State :=
  ((State.setChan { s with parse := p } n c).eventIf n raised).done

section
variable (s : State) (p : Parse) (n : Chan) (c : Channel) (raised : Bool)

@[simp] theorem State.setParse_chan : State.chan { s with parse := p } n = s.chan n := by
  cases n <;> rfl

@[simp] theorem State.channelMoved_parse : (s.channelMoved p n c raised).parse = p := by
  cases n <;> cases raised <;> rfl

@[simp] theorem State.channelMoved_chan_self : (s.channelMoved p n c raised).chan n = c := by
  simp [State.channelMoved]

theorem State.channelMoved_chan_ne {m : Chan} (h : m ≠ n) : (s.channelMoved p n c raised).chan m = s.chan m := by
  simp [State.channelMoved, State.setChan_chan_ne _ _ h]

theorem State.channelMoved_intStatus :
    (s.channelMoved p n c raised).intStatus = (s.intStatus ||| if raised then refEvent n else 0) ||| intDone := by
  rw [← intArb_eq_refEvent]
  cases n <;> cases raised <;> simp [State.channelMoved, State.setChan, State.eventIf, State.event, State.setInt,
    State.complete, completionBits]

/-- A command that moves a channel changes that channel and, when it takes a frame, the parse latch. -/
theorem Frame.channelMoved {parts : List Part} (hparse : .parse ∉ parts → p = s.parse) (hchan : .chan n ∈ parts) :
    Frame .none (if raised then refEvent n else 0) parts s (s.channelMoved p n c raised) := by
  refine Frame.of_complete (by simp) ?_ ?_ (by simp) (by simp) (by simp) (by simpa using hparse) (fun m hm => ?_)
    (fun _ _ => by cases n <;> cases raised <;> rfl) (fun _ _ => by cases n <;> cases raised <;> rfl)
  · cases raised <;> simp [intArb_eq_refEvent]
  · cases n <;> cases raised <;> exact { SameHost.refl s with }
  · have hne : m ≠ n := by
      rintro rfl
      exact hm hchan
    simp [State.setChan_chan_ne _ _ hne]

end

end Sys2Proof.Machine
end

section
/-! SUPPORT. Everything one step can do to a channel (46_acknack R374 to R382). -/

namespace Sys2Proof.Machine

/-! ### The moves of a channel -/

/-- The moves the engine and the tick source make with a channel, and whether the move raises the channel's
event. -/
inductive Channel.Move (c : Channel) : Channel → Bool → Prop
  | keep : c.Move c false
  | tick : c.Move c.tick.1 c.tick.2
  | start (id : MsgId) (ty : TxType) (hidle : c.state.inProgress = false) (hbase : c.toBase ≠ 0) :
      c.Move (c.started id ty) false
  | resend (hdue : c.state = .retryDue) : c.Move c.resent false
  | respond (p : Parse) (hp : c.state.inProgress = true) : c.Move (c.respond p).1 (c.respond p).2
  | abort (hp : c.state.inProgress = true) : c.Move (c.fail .aborted) true

/-- Channel `n` makes a move from `s` to `t`, and its INT_STATUS bit is set when the move raises its event. -/
def ChannelMoves (n : Chan) (s t : State) : Prop :=
  ∃ raised, (s.chan n).Move (t.chan n) raised ∧ (raised = true → t.intStatus &&& refEvent n = refEvent n)

theorem or_and_self_right {w : Nat} (x e : BitVec w) : (x ||| e) &&& e = e := by
  ext i hi
  simp +contextual

/-- A bit that is set stays set when more bits are. -/
theorem or_and_eq_of_and_eq {w : Nat} {x e : BitVec w} (h : x &&& e = e) (y : BitVec w) : (x ||| y) &&& e = e := by
  rw [BitVec.or_comm, ← h]
  ext i hi
  simp +contextual

theorem ChannelMoves.of_eq {n : Chan} {s t : State} (h : t.chan n = s.chan n) : ChannelMoves n s t :=
  ⟨false, h ▸ .keep, by simp⟩

/-! ### The engine -/

/-- The outcome is a next state in which each channel made a move. -/
inductive MovesChannels (s : State) : Host.Outcome State Fault Refusal → Prop
  | kept {t : State} (ch0 : t.ch0 = s.ch0) (ch1 : t.ch1 = s.ch1) : MovesChannels s (.next t)
  | moved (p : Parse) (n : Chan) {c : Channel} {raised : Bool} (move : (s.chan n).Move c raised) :
      MovesChannels s (.next (s.channelMoved p n c raised))

theorem MovesChannels.channel {s t : State} (h : MovesChannels s (.next t)) (n : Chan) : ChannelMoves n s t := by
  cases h with
  | kept ch0 ch1 =>
    refine .of_eq ?_
    cases n
    · exact ch0
    · exact ch1
  | moved p m move =>
    by_cases hn : n = m
    · subst hn
      refine ⟨_, by simpa using move, fun hraised => ?_⟩
      rw [State.channelMoved_intStatus, if_pos hraised]
      exact or_and_eq_of_and_eq (or_and_self_right _ _) _
    · exact .of_eq (State.channelMoved_chan_ne _ _ _ _ _ hn)

section
variable {s t u : State} {p : Prop} [Decidable p]

theorem MovesChannels.ite (ht : p → MovesChannels s (.next t)) (hu : ¬ p → MovesChannels s (.next u)) :
    MovesChannels s (.next (if p then t else u)) := by
  split
  · next hp => exact ht hp
  · next hp => exact hu hp

/-- A check that raises an error when it fails, before the rest of the command. -/
theorem MovesChannels.guard {e : ErrCode} (hu : ¬ p → MovesChannels s (.next u)) :
    MovesChannels s (.next (if p then s.raise e else u)) :=
  .ite (fun _ => .kept rfl rfl) hu

/-- A command that writes no channel whether its check holds or fails. -/
theorem MovesChannels.guard_kept {e : ErrCode} (ch0 : u.ch0 = s.ch0) (ch1 : u.ch1 = s.ch1) :
    MovesChannels s (.next (if p then s.raise e else u)) :=
  .guard fun _ => .kept ch0 ch1

end

theorem execArbStart_movesChannels (n : Chan) (s : State) : MovesChannels s (execArbStart n s) := by
  refine .guard fun hidle => ?_
  split
  · exact .kept rfl rfl
  · exact .guard fun hbase => .moved s.parse n (.start _ _ (Bool.not_eq_true _ ▸ hidle) hbase)

theorem execArbResend_movesChannels (n : Chan) (s : State) : MovesChannels s (execArbResend n s) :=
  .guard fun hdue => .moved s.parse n (.resend (not_not.mp hdue))

theorem execArbRespond_movesChannels (n : Chan) (s : State) : MovesChannels s (execArbRespond n s) :=
  .guard fun hp => .guard fun _ => .guard fun _ => .moved _ n (.respond s.parse (Bool.not_eq_false _ ▸ hp))

theorem execArbAbort_movesChannels (n : Chan) (s : State) : MovesChannels s (execArbAbort n s) :=
  .guard fun hp => .moved s.parse n (.abort (Bool.not_eq_false _ ▸ hp))

/-- Only the four commands of the arbiter write a channel. -/
theorem exec_movesChannels (i : Instr) (s : State) : MovesChannels s (exec i s) := by
  have keep {t : State} (ch0 : t.ch0 = s.ch0) (ch1 : t.ch1 = s.ch1) : MovesChannels s (.next t) := .kept ch0 ch1
  cases i with
  | nop | pidInfo | keyRotate | keyCommit | nackFatal => exact keep rfl rfl
  | encode | crcCompute | crcFill | midNext => exact .guard_kept rfl rfl
  | payEncode => exact .guard fun _ => .guard_kept rfl rfl
  | ackParse => exact .guard fun _ => .guard fun _ => .guard_kept rfl rfl
  | crcCheck => exact .guard fun _ => .ite (fun _ => keep rfl rfl) fun _ => keep rfl rfl
  | decode =>
    refine .guard fun _ => ?_
    split <;> exact keep rfl rfl
  | payDecode =>
    refine .guard fun _ => .guard fun _ => ?_
    split <;> exact keep rfl rfl
  | xteaEnc | xteaDec =>
    exact .guard fun _ => .guard fun _ => .guard fun _ => .ite (fun _ => keep rfl rfl) fun _ => keep rfl rfl
  | openPayload =>
    refine .guard fun _ => .guard fun _ => .guard fun _ =>
      .ite (fun _ => .ite (fun _ => keep rfl rfl) fun _ => keep rfl rfl) fun _ => ?_
    split <;> exact keep rfl rfl
  | midValidate =>
    exact .guard fun _ => .ite (fun _ => keep rfl rfl) fun _ => .ite (fun _ => keep rfl rfl) fun _ =>
      .ite (fun _ => keep rfl rfl) fun _ => .ite (fun _ => keep rfl rfl) fun _ => keep rfl rfl
  | arbStart n => exact execArbStart_movesChannels n s
  | arbResend n => exact execArbResend_movesChannels n s
  | arbRespond n => exact execArbRespond_movesChannels n s
  | arbAbort n => exact execArbAbort_movesChannels n s

theorem engineTurn_channelMoves {s t : State} (h : engineTurn s = .next t) (n : Chan) : ChannelMoves n s t := by
  rcases engineTurn_cases h with ⟨rfl, -⟩ | ⟨w, i, -, -, -, hexec⟩ | ⟨w, e, -, -, -, rfl⟩
  · exact .of_eq rfl
  · have hmoves : MovesChannels s (.next t) := hexec ▸ exec_movesChannels i s
    exact hmoves.channel n
  · exact .of_eq (by simp)

/-! ### Ticks -/

@[simp] theorem State.tick_chan (s : State) (n : Chan) : s.tick.chan n = (s.chan n).tick.1 := by
  rw [State.tick_eq]
  cases n <;> rfl

theorem State.tick_channelMoves (s : State) (n : Chan) : ChannelMoves n s s.tick := by
  refine ⟨(s.chan n).tick.2, s.tick_chan n ▸ .tick, fun hraised => ?_⟩
  rw [State.tick_eq]
  cases n with
  | c0 =>
    rw [if_pos (c := s.ch0.tick.2 = true) hraised]
    exact or_and_eq_of_and_eq (or_and_self_right _ _) _
  | c1 =>
    rw [if_pos (c := s.ch1.tick.2 = true) hraised]
    exact or_and_self_right _ _

/-! ### Host writes -/

/-- The offset of ARBn_CFG (10_state R33). -/
def configOffset : Chan → Nat
  | .c0 => 0x080
  | .c1 => 0x090

/-- The channel after a host write of `v` to ARBn_CFG (10_state R52). -/
def Channel.configured (c : Channel) (v : Word) : Channel :=
  { c with toBase := v.extractLsb' 0 16, toStep := v.extractLsb' 16 16 }

/-- A host write stores in a channel at the offset of its ARBn_CFG alone. -/
theorem WindowMap.writeTarget_chan {off : Nat} {tgt : Target} (h : WindowMap off tgt) (s : State) (v : Word)
    (n : Chan) :
    (s.writeTarget tgt v).chan n = s.chan n ∨
      off = configOffset n ∧ (s.writeTarget tgt v).chan n = (s.chan n).configured v := by
  cases h with
  | arbCfg0 =>
    cases n
    · exact .inr ⟨rfl, rfl⟩
    · exact .inl rfl
  | arbCfg1 =>
    cases n
    · exact .inl rfl
    · exact .inr ⟨rfl, rfl⟩
  | _ => exact .inl (by cases n <;> rfl)

theorem State.hostWrite_chan (s : State) (addr : BusAddr) (v : Word) (n : Chan) :
    (s.hostWrite addr v).chan n = s.chan n ∨
      refOffset addr = configOffset n ∧ (s.hostWrite addr v).chan n = (s.chan n).configured v := by
  rcases s.hostWrite_cases addr v with ⟨-, h⟩ | ⟨-, h⟩ | ⟨-, h⟩ | ⟨-, h⟩ | ⟨-, h⟩ <;> rw [h]
  · split <;> exact .inl (by cases n <;> rfl)
  · exact .inl (by cases n <;> rfl)
  · exact .inl (by cases n <;> rfl)
  · exact .inl rfl
  · split
    · exact .inl (by cases n <;> rfl)
    · exact (windowMap_target addr).writeTarget_chan s v n

/-! ### One step -/

/-- Everything one step can do to channel `n`. -/
inductive ChannelStep (n : Chan) (s t : State) : Prop
  | move (h : ChannelMoves n s t)
  | configure (addr : BusAddr) (v : Word) (rest : List Input) (hi : s.inputs = .write addr v :: rest)
      (hoff : refOffset addr = configOffset n) (h : t.chan n = (s.chan n).configured v)
  | reset (hi : s.inputs.head? = some (.rst true)) (h : t.chan n = Channel.atReset)

/-- The schedule is no part of a channel. -/
theorem State.chan_inputs (s : State) (rest : List Input) (n : Chan) :
    State.chan { s with inputs := rest } n = s.chan n := by
  cases n <;> rfl

theorem step_channelStep {s t : State} (h : step s = .next t) (n : Chan) : ChannelStep n s t := by
  have hrest (rest : List Input) {u : State} (hu : ChannelMoves n { s with inputs := rest } u) :
      ChannelStep n s u := .move (by rwa [ChannelMoves, State.chan_inputs] at hu)
  rcases step_cases h with ⟨-, hturn⟩ | ⟨rest, -, hturn⟩ | ⟨addr, rest, -, rfl⟩ | ⟨addr, v, rest, hi, rfl⟩ |
    ⟨rest, -, rfl⟩ | ⟨level, rest, hi, rfl⟩
  · exact .move (engineTurn_channelMoves hturn n)
  · exact hrest rest (engineTurn_channelMoves hturn n)
  · refine hrest rest (.of_eq ?_)
    obtain ⟨word, count, hread⟩ := State.hostRead_frame { s with inputs := rest } addr
    rw [hread]
    split <;> cases n <;> rfl
  · split
    · exact hrest rest (.of_eq rfl)
    · rcases State.hostWrite_chan { s with inputs := rest } addr v n with hkept | ⟨hoff, hcfg⟩
      · exact hrest rest (.of_eq hkept)
      · exact .configure addr v rest hi hoff (by rw [hcfg, State.chan_inputs])
  · split
    · exact hrest rest (.of_eq rfl)
    · exact hrest rest (State.tick_channelMoves _ n)
  · cases level with
    | true => exact .reset (by rw [hi]; rfl) (by cases n <;> rfl)
    | false => exact hrest rest (.of_eq (by cases n <;> rfl))

end Sys2Proof.Machine
end

section
/-! SUPPORT. The statements about every step: the transitions of a channel and its running timer (46_acknack
R374, R380 to R382). -/

namespace Sys2Proof.Machine

/-! ### Transitions (46_acknack R374, R381) -/

/-- The states whose entry raises the channel's event (46_acknack R381). -/
def ChanState.Announced (st : ChanState) : Prop := st = .retryDue ∨ st = .doneOk ∨ st = .doneFail

/-- A move from `c` to `c'` keeps the state, or is listed and raises the event where R381 asks for it. -/
def Channel.MoveListed (c c' : Channel) (raised : Bool) : Prop :=
  c'.state = c.state ∨ refTransition c c' ∧ (c'.state.Announced → raised = true)

theorem Channel.tick_listed (c : Channel) : c.MoveListed c.tick.1 c.tick.2 := by
  rcases c.tick_cases with ⟨-, -, ht⟩ | ⟨-, -, ht⟩ | ⟨hs | ⟨hs, hlt⟩, -, ht⟩ | ⟨hs, hle, -, ht⟩ <;> rw [ht]
  · exact .inl rfl
  · exact .inl rfl
  · exact .inr ⟨by simp [refTransition, hs], fun _ => rfl⟩
  · exact .inr ⟨by simp [refTransition, hs, hlt], fun _ => rfl⟩
  · exact .inr ⟨by simp [refTransition, refInProgress, hs, hle], fun _ => rfl⟩

theorem Channel.started_listed {c : Channel} (id : MsgId) (ty : TxType) (hidle : c.state.inProgress = false)
    (hbase : c.toBase ≠ 0) : c.MoveListed (c.started id ty) false := by
  have hstate : c.state = .idle ∨ c.state = .doneOk ∨ c.state = .doneFail := by
    cases hs : c.state <;> simp [hs, ChanState.inProgress] at hidle ⊢
  exact .inr ⟨.inl ⟨hstate, rfl, rfl, hbase⟩, by simp [ChanState.Announced, Channel.started]⟩

theorem Channel.resent_listed {c : Channel} (hdue : c.state = .retryDue) : c.MoveListed c.resent false :=
  .inr ⟨.inr (.inr (.inr (.inl ⟨hdue, rfl, rfl⟩))), by simp [ChanState.Announced, Channel.resent]⟩

theorem Channel.fail_listed {c c' : Channel} {cause : TxCause} (hp : refInProgress c)
    (htype : c'.txType = c.txType) (hattempt : c'.attempt = c.attempt)
    (hcause : cause = .nackFatal ∨ (cause = .nackExhausted ∧ 8 ≤ c.attempt.toNat) ∨ cause = .aborted) :
    c.MoveListed (c'.fail cause) true := by
  have hfail : refTransition c (c'.fail cause) :=
    .inr (.inr (.inr (.inr (.inr (.inl ⟨hp, rfl, congrArg TxType.failResult htype, hattempt, .inr hcause⟩)))))
  exact .inr ⟨hfail, fun _ => rfl⟩

/-- From a transaction in progress a response makes a listed transition, or keeps the state when RETRY_DUE is
told to retry or PAUSE to pause. -/
theorem Channel.respond_listed {c : Channel} (p : Parse) (hp : c.state.inProgress = true) :
    c.MoveListed (c.respond p).1 (c.respond p).2 := by
  have hprogress := refInProgress_iff.mpr hp
  rcases c.respond_cases p _ rfl with
    ⟨-, hr⟩ | ⟨-, -, hr⟩ | ⟨-, -, hlt, -, -, hr⟩ | ⟨-, -, hlt, -, hr⟩ | ⟨-, -, hle, hr⟩ <;> rw [hr]
  · exact .inr ⟨by simp [refTransition, Channel.succeed, hprogress], fun _ => rfl⟩
  · exact fail_listed hprogress rfl rfl (.inl rfl)
  · rcases hprogress with hs | hs | hs
    · exact .inr ⟨by simp [refTransition, hs, hlt], by simp [ChanState.Announced]⟩
    · exact .inr ⟨by simp [refTransition, hs, hlt], by simp [ChanState.Announced]⟩
    · exact .inl hs.symm
  · rcases hprogress with hs | hs | hs
    · exact .inr ⟨by simp [refTransition, Channel.retry, hs, hlt], fun _ => rfl⟩
    · exact .inl hs.symm
    · exact .inr ⟨by simp [refTransition, Channel.retry, hs], fun _ => rfl⟩
  · exact fail_listed hprogress rfl rfl (.inr (.inl ⟨rfl, hle⟩))

theorem Channel.Move.listed {c c' : Channel} {raised : Bool} (h : c.Move c' raised) : c.MoveListed c' raised := by
  cases h with
  | keep => exact .inl rfl
  | tick => exact c.tick_listed
  | start id ty hidle hbase => exact started_listed id ty hidle hbase
  | resend hdue => exact resent_listed hdue
  | respond p hp => exact respond_listed p hp
  | abort hp => exact fail_listed (refInProgress_iff.mpr hp) rfl rfl (.inr (.inr rfl))

/-- Settles O46: a move is listed, and a write of ARBn_CFG keeps the state. -/
theorem channelsMakeOnlyListedTransitions : Obligations.ChannelsMakeOnlyListedTransitions := by
  intro s t hstep hrst n c c'
  cases step_channelStep hstep n with
  | move h =>
    obtain ⟨raised, hmove, hevent⟩ := h
    exact hmove.listed.imp_right fun ⟨hlisted, hraised⟩ => ⟨hlisted, fun hc => hevent (hraised hc)⟩
  | configure addr v rest hi hoff h => exact .inl (by rw [show c' = c.configured v from h]; rfl)
  | reset hi h => exact absurd hi hrst

/-! ### Running timers (46_acknack R374, R380) -/

/-- A transaction in progress has a timeout, and a timer that runs has not run out. -/
def Channel.TimerRuns (c : Channel) : Prop :=
  refInProgress c → c.toBase ≠ 0 ∧ (c.state = .wait ∨ c.state = .pause → c.remain ≠ 0)

theorem Channel.timerRuns_of_not_inProgress {c : Channel} (h : c.state.inProgress = false) : c.TimerRuns :=
  fun hp => by simp [refInProgress_iff, h] at hp

theorem Channel.timeout_toNat (c : Channel) {a : Nat} (ha : a ≤ 16) :
    (c.timeout a).toNat = c.toBase.toNat + (a - 1) * c.toStep.toNat := by
  have hsteps : (a - 1) * c.toStep.toNat ≤ 15 * 2 ^ 16 :=
    Nat.mul_le_mul (by omega) c.toStep.isLt.le
  rw [Channel.timeout, BitVec.toNat_ofNat]
  omega

/-- No attempt the 4 bits of ATTEMPT can count has a timeout of 0 unless TO_BASE is 0. -/
theorem Channel.timeout_ne_zero {c : Channel} (hbase : c.toBase ≠ 0) {a : Nat} (ha : a ≤ 16) : c.timeout a ≠ 0 := by
  have hpos : c.toBase.toNat ≠ 0 := fun hzero => hbase (BitVec.eq_of_toNat_eq hzero)
  intro hzero
  have hsum : c.toBase.toNat + (a - 1) * c.toStep.toNat = 0 := by
    rw [← c.timeout_toNat ha, hzero]
    rfl
  omega

/-- Neither SLOW_DOWN_TIME nor SPEED_UP_TIME brings TO_BASE to 0. -/
theorem adjustedBase_ne_zero {base : BitVec 16} (hbase : base ≠ 0) (h : BitVec 4) (v : Word) :
    adjustedBase base h v ≠ 0 := by
  have hlt := base.isLt
  have hpos : base.toNat ≠ 0 := fun hzero => hbase (BitVec.eq_of_toNat_eq hzero)
  have ofNat_ne_zero {m : Nat} (hm : m ≠ 0 ∧ m < 2 ^ 16) : BitVec.ofNat 16 m ≠ 0 := fun hzero => by
    have hmod : m % 2 ^ 16 = 0 := (BitVec.toNat_ofNat m 16).symm.trans (congrArg BitVec.toNat hzero)
    omega
  unfold adjustedBase
  split
  · exact ofNat_ne_zero (by omega)
  · split
    · split
      · decide
      · exact ofNat_ne_zero (by omega)
    · exact hbase

/-- A TICK that leaves a timer running leaves it above 0 (46_acknack R382). -/
theorem Channel.TimerRuns.tick {c : Channel} (h : c.TimerRuns) : c.tick.1.TimerRuns := by
  rcases c.tick_cases with ⟨-, -, ht⟩ | ⟨-, hz, ht⟩ | ⟨hs, -, ht⟩ | ⟨-, -, -, ht⟩ <;> rw [ht]
  · exact h
  · exact fun hp => ⟨(h hp).1, fun _ => hz⟩
  · have hp : refInProgress c := by rcases hs with hs | ⟨hs, -⟩ <;> simp [refInProgress, hs]
    exact fun _ => ⟨(h hp).1, by simp⟩
  · exact timerRuns_of_not_inProgress rfl

theorem Channel.TimerRuns.respond {c : Channel} (h : c.TimerRuns) (p : Parse) (hp : c.state.inProgress = true) :
    (c.respond p).1.TimerRuns := by
  have hbase := adjustedBase_ne_zero (h (refInProgress_iff.mpr hp)).1 p.handle p.value
  rcases c.respond_cases p _ rfl with
    ⟨-, hr⟩ | ⟨-, -, hr⟩ | ⟨-, -, -, -, hv, hr⟩ | ⟨-, -, -, -, hr⟩ | ⟨-, -, -, hr⟩ <;> rw [hr]
  · exact timerRuns_of_not_inProgress rfl
  · exact timerRuns_of_not_inProgress rfl
  · exact fun _ => ⟨hbase, fun _ => hv⟩
  · exact fun _ => ⟨hbase, by simp [Channel.retry]⟩
  · exact timerRuns_of_not_inProgress rfl

theorem Channel.Move.timerRuns {c c' : Channel} {raised : Bool} (hmove : c.Move c' raised) (h : c.TimerRuns) :
    c'.TimerRuns := by
  cases hmove with
  | keep => exact h
  | tick => exact h.tick
  | start id ty hidle hbase => exact fun _ => ⟨hbase, fun _ => timeout_ne_zero hbase (by decide)⟩
  | resend hdue =>
    have hbase := (h (.inr (.inl hdue))).1
    exact fun _ => ⟨hbase, fun _ => timeout_ne_zero hbase (by omega)⟩
  | respond p hp => exact h.respond p hp
  | abort hp => exact timerRuns_of_not_inProgress rfl

/-- Settles O60: every move keeps a running timer running, and ARBn_CFG is not written with TO_BASE = 0. -/
theorem runningTimersAreNotZero : Obligations.RunningTimersAreNotZero := by
  intro s t _ hstep hwrite ok hs n
  have hruns : (s.chan n).TimerRuns := hs n
  suffices (t.chan n).TimerRuns from this
  cases step_channelStep hstep n with
  | move h =>
    obtain ⟨raised, hmove, -⟩ := h
    exact hmove.timerRuns hruns
  | configure addr v rest hi hoff h =>
    have hbase : v.extractLsb' 0 16 ≠ 0 := by
      have hv := hwrite addr v rest hi (by cases n <;> simp [hoff, configOffset])
      rw [ne_eq, ← BitVec.toNat_inj, BitVec.extractLsb'_toNat, Nat.shiftRight_zero]
      exact hv
    rw [h]
    exact fun hp => ⟨hbase, (hruns hp).2⟩
  | reset hi h =>
    rw [h]
    exact Channel.timerRuns_of_not_inProgress rfl

end Sys2Proof.Machine
end

section
/-! SUPPORT. What each command of the arbiter does, by the outcome of its checks: its next state as an equation
(46_acknack R375 to R378). -/

namespace Sys2Proof.Machine

theorem not_refInProgress_iff {c : Channel} : ¬ refInProgress c ↔ c.state.inProgress = false :=
  refInProgress_iff.not.trans (Bool.not_eq_true _).to_iff

section
variable {s : State} {n : Chan}

/-! ### ARB_START (46_acknack R375) -/

/-- Channel 0 serves TYPE 0, channel 1 the TYPEs 1 and 2. -/
theorem servedType_eq_some_iff {t : BitVec 2} {ty : TxType} :
    servedType n t = some ty ↔ ty.code = t ∧ (n = .c0 ↔ ty = .single) := by
  cases n <;> cases ty <;> revert t <;> decide

theorem servedType_ne_none_iff {t : BitVec 2} :
    servedType n t ≠ none ↔ (n = .c0 ∧ t.toNat = 0) ∨ (n = .c1 ∧ (t.toNat = 1 ∨ t.toNat = 2)) := by
  cases n <;> revert t <;> decide

theorem exec_arbStart_inProgress (hp : (s.chan n).state.inProgress = true) :
    exec (.arbStart n) s = .next (s.raise .alreadyInProgress) :=
  congrArg Host.Outcome.next (if_pos hp)

theorem exec_arbStart_badParam (hidle : (s.chan n).state.inProgress = false)
    (hbad : servedType n s.argType = none ∨ (s.chan n).toBase = 0) :
    exec (.arbStart n) s = .next (s.raise .badParam) := by
  refine congrArg Host.Outcome.next ((if_neg (by simp [hidle])).trans ?_)
  cases hserved : servedType n s.argType with
  | none => rfl
  | some ty => exact if_pos (hbad.resolve_left (by simp [hserved]))

theorem exec_arbStart_done (hidle : (s.chan n).state.inProgress = false) {ty : TxType}
    (hserved : servedType n s.argType = some ty) (hbase : (s.chan n).toBase ≠ 0) :
    exec (.arbStart n) s = .next (s.channelMoved s.parse n ((s.chan n).started s.argMsgId ty) false) := by
  refine congrArg Host.Outcome.next ((if_neg (by simp [hidle])).trans ?_)
  rw [hserved]
  exact if_neg hbase

/-! ### ARB_RESEND (46_acknack R376) and ARB_ABORT (46_acknack R378) -/

theorem exec_arbResend_wrongState (hs : (s.chan n).state ≠ .retryDue) :
    exec (.arbResend n) s = .next (s.raise .wrongState) :=
  congrArg Host.Outcome.next (if_pos hs)

theorem exec_arbResend_done (hs : (s.chan n).state = .retryDue) :
    exec (.arbResend n) s = .next (s.channelMoved s.parse n (s.chan n).resent false) :=
  congrArg Host.Outcome.next (if_neg (not_not.mpr hs))

theorem exec_arbAbort_wrongState (hidle : (s.chan n).state.inProgress = false) :
    exec (.arbAbort n) s = .next (s.raise .wrongState) :=
  congrArg Host.Outcome.next (if_pos hidle)

theorem exec_arbAbort_done (hp : (s.chan n).state.inProgress = true) :
    exec (.arbAbort n) s = .next (s.channelMoved s.parse n ((s.chan n).fail .aborted) true) :=
  congrArg Host.Outcome.next (if_neg (by simp [hp]))

/-! ### ARB_RESPOND (46_acknack R377) -/

theorem exec_arbRespond_wrongState (h : (s.chan n).state.inProgress = false ∨ s.parse.valid = false) :
    exec (.arbRespond n) s = .next (s.raise .wrongState) := by
  by_cases hidle : (s.chan n).state.inProgress = false
  · exact congrArg Host.Outcome.next (if_pos hidle)
  · exact congrArg Host.Outcome.next ((if_neg hidle).trans (if_pos (h.resolve_left hidle)))

section
variable (hp : (s.chan n).state.inProgress = true) (hvalid : s.parse.valid = true)
include hp hvalid

theorem exec_arbRespond_badMsgId (hid : s.parse.msgId ≠ (s.chan n).expId) :
    exec (.arbRespond n) s = .next (s.raise .badMsgId) :=
  congrArg Host.Outcome.next <|
    (if_neg (by simp [hp])).trans <| (if_neg (by simp [hvalid])).trans <| if_pos hid

theorem exec_arbRespond_done (hid : s.parse.msgId = (s.chan n).expId) :
    exec (.arbRespond n) s = .next (s.channelMoved { s.parse with valid := false } n
      ((s.chan n).respond s.parse).1 ((s.chan n).respond s.parse).2) :=
  congrArg Host.Outcome.next <|
    (if_neg (by simp [hp])).trans <| (if_neg (by simp [hvalid])).trans <| if_neg (not_not.mpr hid)

end

end

/-! ### The answers of a channel to a frame (46_acknack R377) -/

/-- TO_BASE after a time-based handle, in numbers: exact addition before it saturates (log 13), subtraction with
floor 1. -/
theorem adjustedBase_eq (base : BitVec 16) (h : BitVec 4) (v : Word) :
    adjustedBase base h v = BitVec.ofNat 16
      (if h = 9 then min 0xFFFF (base.toNat + v.toNat) else if h = 10 then max 1 (base.toNat - v.toNat)
      else base.toNat) := by
  unfold adjustedBase
  split
  · rfl
  · split
    · split
      · next hle => simp [Nat.sub_eq_zero_of_le hle]
      · next hgt => rw [max_eq_right (by omega)]
    · simp

/-- A NACK is fatal by its reason (46_acknack R373). -/
theorem Parse.fatal_iff {p : Parse} (hnack : p.isNack = true) : p.fatal = true ↔ 128 ≤ p.reason.toNat := by
  have hfatal := p.fatal_toNat
  cases hf : p.fatal <;> simp [hf, hnack] at hfatal ⊢ <;> omega

section
variable {c : Channel} {p : Parse}

theorem Channel.respond_ack (hack : p.isNack = false) : c.respond p = ((c.taking p).succeed, true) :=
  if_pos hack

section
variable (hnack : p.isNack = true)
include hnack

theorem Channel.respond_fatal (hfatal : 128 ≤ p.reason.toNat) :
    c.respond p = ((c.taking p).fail .nackFatal, true) :=
  (if_neg (by simp [hnack])).trans (if_pos ((Parse.fatal_iff hnack).mpr hfatal))

variable (hmild : ¬ 128 ≤ p.reason.toNat)
include hmild

/-- Whether a NACK that is not fatal is answered by a retry or ends the transaction depends on ATTEMPT. -/
theorem Channel.respond_mild :
    c.respond p =
      if c.attempt.toNat < 8 then
        if p.handle = 11 ∧ p.value ≠ 0 then ({ c.taking p with state := .pause, remain := p.value }, false)
        else ((c.taking p).retry, true)
      else ((c.taking p).fail .nackExhausted, true) :=
  (if_neg (by simp [hnack])).trans (if_neg ((Parse.fatal_iff hnack).not.mpr hmild))

theorem Channel.respond_pause (hlt : c.attempt.toNat < 8) (hpause : p.handle = 11 ∧ p.value ≠ 0) :
    c.respond p = ({ c.taking p with state := .pause, remain := p.value }, false) := by
  rw [Channel.respond_mild hnack hmild, if_pos hlt, if_pos hpause]

theorem Channel.respond_retry (hlt : c.attempt.toNat < 8) (hpause : ¬ (p.handle = 11 ∧ p.value ≠ 0)) :
    c.respond p = ((c.taking p).retry, true) := by
  rw [Channel.respond_mild hnack hmild, if_pos hlt, if_neg hpause]

theorem Channel.respond_exhausted (hle : 8 ≤ c.attempt.toNat) :
    c.respond p = ((c.taking p).fail .nackExhausted, true) := by
  rw [Channel.respond_mild hnack hmild, if_neg (by omega)]

end

end

end Sys2Proof.Machine
end

section
/-! SUPPORT. The statements about the commands of the arbiter (46_acknack R375 to R378). -/

namespace Sys2Proof.Machine

theorem State.argType_toNat (s : State) : s.argType.toNat = s.arg0.toNat / 4096 % 4 := by
  rw [State.argType, BitVec.extractLsb'_toNat, Nat.shiftRight_eq_div_pow]

theorem State.argMsgId_toNat (s : State) : s.argMsgId.toNat = s.arg0.toNat % 4096 :=
  ((s.argMsgId_eq_iff _).mp rfl).symm

/-- A command that moves one channel and keeps the parse latch. -/
theorem Frame.movedAlone (s : State) (n : Chan) (c : Channel) (raised : Bool) :
    Frame .none (if raised then refEvent n else 0) [.chan n] s (s.channelMoved s.parse n c raised) :=
  Frame.channelMoved s s.parse n c raised (fun _ => rfl) (by simp)

/-- Settles O41: the first check is the channel's state, then the operands. -/
theorem arbStartStartsTheChannel : Obligations.ArbStartStartsTheChannel := by
  intro s n c ty typeOk
  have htypeOk : servedType n s.argType ≠ none ↔ typeOk := by
    rw [servedType_ne_none_iff, s.argType_toNat]
  refine ⟨refEncoding_opcode (.arbStart n), fun hp => ?_, fun hidle hbad => ?_, fun hidle hok hbase => ?_⟩
  · exact ⟨_, exec_arbStart_inProgress (refInProgress_iff.mp hp), Frame.raise s _⟩
  · have hbad' := hbad.imp_left fun hty => not_not.mp (htypeOk.not.mpr hty)
    exact ⟨_, exec_arbStart_badParam (not_refInProgress_iff.mp hidle) hbad', Frame.raise s _⟩
  · obtain ⟨t, hserved⟩ := Option.ne_none_iff_exists'.mp (htypeOk.mpr hok)
    obtain ⟨hcode, -⟩ := servedType_eq_some_iff.mp hserved
    have hremain : (c.timeout 1).toNat = c.toBase.toNat := by simpa using c.timeout_toNat (a := 1) (by decide)
    refine ⟨_, exec_arbStart_done (not_refInProgress_iff.mp hidle) hserved hbase, Frame.movedAlone s n _ false, ?_⟩
    rw [State.channelMoved_chan_self]
    exact ⟨rfl, rfl, s.argMsgId_toNat, (congrArg BitVec.toNat hcode).trans s.argType_toNat, rfl, rfl, rfl, rfl, rfl,
      hremain, rfl⟩

/-- ARB_RESEND counts ATTEMPT up by one, which sets the timeout (46_acknack R376, R380). -/
theorem Channel.resent_eq {c : Channel} (hle : c.attempt.toNat ≤ 8) :
    c.resent = { c with
      attempt := BitVec.ofNat 4 (c.attempt.toNat + 1)
      remain := BitVec.ofNat 32 (c.toBase.toNat + c.attempt.toNat * c.toStep.toNat)
      state := .wait } := by
  have hnext : (c.attempt + 1).toNat = c.attempt.toNat + 1 := by bv_omega
  have hattempt : c.attempt + 1 = BitVec.ofNat 4 (c.attempt.toNat + 1) := by bv_omega
  rw [Channel.resent, Channel.timeout, hnext, hattempt, Nat.add_sub_cancel]

/-- Settles O42. -/
theorem arbResendStartsTheNextAttempt : Obligations.ArbResendStartsTheNextAttempt := by
  intro s n hle c
  refine ⟨refEncoding_opcode (.arbResend n), fun hs => ?_, fun hs => ?_⟩
  · exact ⟨_, exec_arbResend_wrongState hs, Frame.raise s _⟩
  · refine ⟨_, exec_arbResend_done hs, Frame.movedAlone s n _ false, ?_⟩
    rw [State.channelMoved_chan_self]
    exact Channel.resent_eq hle

/-- Settles O44. -/
theorem arbAbortEndsTheTransaction : Obligations.ArbAbortEndsTheTransaction := by
  intro s n c
  refine ⟨refEncoding_opcode (.arbAbort n), fun hidle => ?_, fun hp => ?_⟩
  · exact ⟨_, exec_arbAbort_wrongState (not_refInProgress_iff.mp hidle), Frame.raise s _⟩
  · refine ⟨_, exec_arbAbort_done (refInProgress_iff.mp hp), Frame.movedAlone s n _ true, ?_⟩
    rw [State.channelMoved_chan_self, Channel.fail]
    cases (s.chan n).txType <;> rfl

/-- Settles O43: once the checks pass, the answer is the response of the channel to the frame, whose five cases
are the five transitions. -/
theorem arbRespondAppliesTheParsedFrame : Obligations.ArbRespondAppliesTheParsedFrame := by
  intro s n c p ready base v newBase c' answers fatal pauses
  have htaking : c.taking p = c' := by rw [Channel.taking, adjustedBase_eq]
  have hanswers {d : Channel} {raised : Bool} (hready : ready) (hid : p.msgId = c.expId)
      (hrespond : c.respond p = (d, raised)) : answers (if raised then refEvent n else 0) d := by
    have hexec := exec_arbRespond_done (refInProgress_iff.mp hready.1) hready.2 hid
    rw [hrespond] at hexec
    exact ⟨_, hexec, Frame.channelMoved s _ n d raised (by simp) (by simp),
      State.channelMoved_parse .., State.channelMoved_chan_self ..⟩
  rw [← htaking]
  refine ⟨refEncoding_opcode (.arbRespond n), fun hnot => ?wrongState, fun hready hid => ?badMsgId,
    fun hready hid hack => ?ack, fun hready hid hnack hfatal => ?fatal,
    fun hready hid hnack hmild hlt hpause => ?pause, fun hready hid hnack hmild hlt hpause => ?retry,
    fun hready hid hnack hmild hle => ?exhausted⟩
  case wrongState =>
    have hfails : c.state.inProgress = false ∨ p.valid = false := by
      simpa only [ready, not_and_or, not_refInProgress_iff, Bool.not_eq_true] using hnot
    exact ⟨_, exec_arbRespond_wrongState hfails, Frame.raise s _⟩
  case badMsgId =>
    exact ⟨_, exec_arbRespond_badMsgId (refInProgress_iff.mp hready.1) hready.2 hid, Frame.raise s _⟩
  case ack => exact hanswers hready hid (Channel.respond_ack hack)
  case fatal => exact hanswers hready hid (Channel.respond_fatal hnack hfatal)
  case pause => exact hanswers hready hid (Channel.respond_pause hnack hmild hlt hpause)
  case retry => exact hanswers hready hid (Channel.respond_retry hnack hmild hlt hpause)
  case exhausted => exact hanswers hready hid (Channel.respond_exhausted hnack hmild hle)

end Sys2Proof.Machine
end

section
/-! SUPPORT. Timers: what one TICK does by the value of REMAIN, what many do, and the statements about them
(46_acknack R380, R382, R384). -/

namespace Sys2Proof.Machine

/-! ### One TICK on a channel -/

/-- The timer runs: WAIT or PAUSE (46_acknack R382). -/
abbrev Channel.Running (c : Channel) : Prop := c.state = .wait ∨ c.state = .pause

/-- The channel after the TICK that brings its timer to 0 (46_acknack R382). -/
def Channel.expired (c : Channel) : Channel :=
  if c.state = .pause ∨ c.attempt.toNat < 8 then { c with remain := 0, state := .retryDue }
  else { c with remain := 0, state := .doneFail, result := c.txType.failResult, cause := .timeOut }

/-- One TICK by the value of the timer: the last count expires it, any other is counted down. -/
theorem Channel.tick_eq (c : Channel) :
    c.tick =
      if c.Running then if c.remain = 1 then (c.expired, true) else ({ c with remain := c.remain - 1 }, false)
      else (c, false) := by
  have hlast : c.remain - 1 = 0 ↔ c.remain = 1 := sub_eq_zero
  rcases c.tick_cases with ⟨hw, hp, ht⟩ | ⟨hs, hz, ht⟩ | ⟨hs, hz, ht⟩ | ⟨hs, hle, hz, ht⟩ <;> rw [ht]
  · rw [if_neg (not_or.mpr ⟨hw, hp⟩)]
  · rw [if_pos hs, if_neg (hlast.not.mp hz)]
  · rw [if_pos (hs.elim .inr fun h => .inl h.1), if_pos (hlast.mp hz), Channel.expired,
      if_pos (hs.imp_right And.right)]
  · rw [if_pos (.inl hs), if_pos (hlast.mp hz), Channel.expired, if_neg (by simp [hs, hle])]

section
variable {c : Channel}

theorem Channel.tick_of_not_running (h : ¬ c.Running) : c.tick = (c, false) := by
  rw [Channel.tick_eq, if_neg h]

theorem Channel.tick_of_running (h : c.Running) (hmore : c.remain ≠ 1) :
    c.tick = ({ c with remain := c.remain - 1 }, false) := by
  rw [Channel.tick_eq, if_pos h, if_neg hmore]

theorem Channel.tick_of_last (h : c.Running) (hlast : c.remain = 1) : c.tick = (c.expired, true) := by
  rw [Channel.tick_eq, if_pos h, if_pos hlast]

theorem Channel.tick_raises_iff : c.tick.2 = true ↔ c.Running ∧ c.remain = 1 := by
  rw [Channel.tick_eq]
  split
  · next hrun =>
    split
    · next hlast => exact iff_of_true rfl ⟨hrun, hlast⟩
    · next hmore => exact iff_of_false (by simp) fun h => hmore h.2
  · next hidle => exact iff_of_false (by simp) fun h => hidle h.1

theorem Channel.expired_of_retry (h : c.state = .pause ∨ c.attempt.toNat < 8) :
    c.expired = { c with remain := 0, state := .retryDue } :=
  if_pos h

theorem Channel.expired_of_last_attempt (hs : c.state = .wait) (hle : 8 ≤ c.attempt.toNat) :
    c.expired =
      { c with remain := 0, state := .doneFail, result := c.txType.failResult, cause := .timeOut } :=
  if_neg (by simp [hs, hle])

end

/-! ### One TICK on the block -/

theorem step_tick {s : State} {rest : List Input} (hi : s.inputs = .tick :: rest) (hr : s.rst = false) :
    step s = .next (State.tick { s with inputs := rest }) := by
  simp only [step_of_inputs_cons hi, applyInput, hr, Bool.false_eq_true, if_false]

/-- A TICK sets the bit of each channel whose timer it brings to 0 (46_acknack R381). -/
theorem State.tick_intStatus_bit (s : State) (b : Nat) :
    s.tick.intStatus.getLsbD b = true ↔
      s.intStatus.getLsbD b = true ∨ (b = 3 ∧ s.ch0.Running ∧ s.ch0.remain = 1) ∨
        (b = 4 ∧ s.ch1.Running ∧ s.ch1.remain = 1) := by
  have hbit0 : intArb .c0 = BitVec.twoPow 5 3 := rfl
  have hbit1 : intArb .c1 = BitVec.twoPow 5 4 := rfl
  have hevent (raised : Bool) (j : Nat) (hj : j < 5) :
      (if raised = true then BitVec.twoPow 5 j else 0).getLsbD b = true ↔ b = j ∧ raised = true := by
    cases raised <;> simp [BitVec.getLsbD_twoPow, hj, eq_comm]
  rw [State.tick_eq]
  simp only [BitVec.getLsbD_or, Bool.or_eq_true, hbit0, hbit1, hevent _ 3 (by decide), hevent _ 4 (by decide),
    or_assoc]
  rw [Channel.tick_raises_iff, Channel.tick_raises_iff]

/-- Settles O45: the tick of each channel by the value of its timer. -/
theorem tickAdvancesTheTimers : Obligations.TickAdvancesTheTimers := by
  intro s rest hi hr runs expires
  refine ⟨_, step_tick hi hr, by rw [State.tick_eq], fun b _ => State.tick_intStatus_bit _ b, fun n => ?_⟩
  have hticked : (State.tick { s with inputs := rest }).chan n = (s.chan n).tick.1 := by
    rw [State.tick_chan, State.chan_inputs]
  rw [hticked]
  refine ⟨fun hidle => ?_, fun hrun hmore => ?_, fun ⟨hrun, hlast⟩ hretry => ?_, fun ⟨hrun, hlast⟩ hs hle => ?_⟩
  · rw [Channel.tick_of_not_running hidle]
  · rw [Channel.tick_of_running hrun hmore]
  · rw [Channel.tick_of_last hrun hlast]
    exact Channel.expired_of_retry hretry
  · rw [Channel.tick_of_last hrun hlast]
    exact Channel.expired_of_last_attempt hs hle

/-! ### Many TICKs -/

/-- The channel after `j` TICKs that do not bring its timer to 0. -/
def Channel.countedDown (c : Channel) (j : Nat) : Channel := { c with remain := c.remain - BitVec.ofNat 32 j }

section
variable {c : Channel} (hrun : c.Running) {j : Nat}
include hrun

theorem Channel.tick_countedDown (hj : j + 1 < c.remain.toNat) : (c.countedDown j).tick.1 = c.countedDown (j + 1) := by
  have hmore : (c.countedDown j).remain ≠ 1 := by
    rw [Channel.countedDown]
    bv_omega
  have hcount : c.remain - BitVec.ofNat 32 j - 1 = c.remain - BitVec.ofNat 32 (j + 1) := by bv_omega
  rw [Channel.tick_of_running (c := c.countedDown j) hrun hmore, Channel.countedDown, Channel.countedDown, hcount]

theorem Channel.tick_countedDown_last (hj : j + 1 = c.remain.toNat) : (c.countedDown j).tick.1 = c.expired := by
  have hlast : (c.countedDown j).remain = 1 := by
    rw [Channel.countedDown]
    bv_omega
  rw [Channel.tick_of_last (c := c.countedDown j) hrun hlast]
  rfl

end

section
variable {s : State} {n : Chan} (hrun : (s.chan n).Running)
include hrun

/-- Until its timer has run out a channel only counts down. -/
theorem State.tick_iterate_chan {j : Nat} (hj : j < (s.chan n).remain.toNat) :
    (State.tick^[j] s).chan n = (s.chan n).countedDown j := by
  induction j with
  | zero => simp [Channel.countedDown]
  | succ j ih =>
    rw [Function.iterate_succ_apply', State.tick_chan, ih (by omega), Channel.tick_countedDown hrun hj]

theorem waitOut_chan (hpos : (s.chan n).remain ≠ 0) : (waitOut n s).chan n = (s.chan n).expired := by
  obtain ⟨r, hr⟩ : ∃ r, (s.chan n).remain.toNat = r + 1 := Nat.exists_eq_succ_of_ne_zero (by bv_omega)
  rw [waitOut, hr, Function.iterate_succ_apply', State.tick_chan, State.tick_iterate_chan hrun (by omega),
    Channel.tick_countedDown_last hrun hr.symm]

end

/-! ### Attempts without a response (46_acknack R384) -/

/-- The channel at the start of attempt `k` of its transaction (46_acknack R376, R380). -/
def Channel.atAttempt (c : Channel) (k : Nat) : Channel :=
  { c with attempt := BitVec.ofNat 4 k, remain := c.timeout k, state := .wait }

theorem Channel.started_eq_atAttempt (c : Channel) (id : MsgId) (ty : TxType) :
    c.started id ty = (c.started id ty).atAttempt 1 := rfl

section
variable {c : Channel} {k : Nat}

theorem Channel.atAttempt_attempt_toNat (hk : k < 16) : (c.atAttempt k).attempt.toNat = k :=
  Nat.mod_eq_of_lt hk

/-- Any timeout but the eighth leaves RETRY_DUE. -/
theorem Channel.expired_atAttempt (hk : k < 8) :
    (c.atAttempt k).expired = { c.atAttempt k with remain := 0, state := .retryDue } :=
  expired_of_retry (.inr (by rwa [atAttempt_attempt_toNat (by omega)]))

theorem Channel.resent_expired_atAttempt (hk : k < 8) : (c.atAttempt k).expired.resent = c.atAttempt (k + 1) := by
  have hattempt : BitVec.ofNat 4 k + 1 = BitVec.ofNat 4 (k + 1) := (BitVec.ofNat_add k 1).symm
  have hcount : (BitVec.ofNat 4 (k + 1)).toNat = k + 1 := Nat.mod_eq_of_lt (by omega)
  rw [expired_atAttempt hk]
  simp only [resent, atAttempt, hattempt, hcount]
  rfl

variable {s : State} {n : Chan} (hbase : c.toBase ≠ 0)
include hbase

theorem waitOut_chan_atAttempt (hk : k ≤ 16) (hs : s.chan n = c.atAttempt k) :
    (waitOut n s).chan n = (c.atAttempt k).expired := by
  rw [waitOut_chan (by rw [hs]; exact .inl rfl) (by rw [hs]; exact Channel.timeout_ne_zero hbase hk), hs]

theorem resendRun_chan (hstart : s.chan n = c.atAttempt 1) (hk : k < 8) :
    (resendRun n k s).chan n = c.atAttempt (k + 1) := by
  induction k with
  | zero => exact hstart
  | succ k ih =>
    have hout := waitOut_chan_atAttempt hbase (by omega) (ih (by omega))
    have hdue : ((waitOut n (resendRun n k s)).chan n).state = .retryDue := by
      rw [hout, Channel.expired_atAttempt (by omega)]
    rw [resendRun, exec_arbResend_done hdue]
    simp only [State.channelMoved_chan_self]
    rw [hout, Channel.resent_expired_atAttempt (by omega)]

end

/-- Settles O47: after `k` resends channel 0 is at the start of attempt `k + 1`. -/
theorem eightTimeoutsFailTheTransaction : Obligations.EightTimeoutsFailTheTransaction := by
  intro s hidle hbase hty
  have hserved : servedType .c0 s.argType = some .single :=
    servedType_eq_some_iff.mpr ⟨BitVec.eq_of_toNat_eq (s.argType_toNat.trans hty).symm, by simp⟩
  refine ⟨_, exec_arbStart_done (n := .c0) (not_refInProgress_iff.mp hidle) hserved hbase, ?_⟩
  generalize hc : (s.chan .c0).started s.argMsgId .single = c
  generalize ht : s.channelMoved s.parse .c0 c false = t
  have hbase' : c.toBase ≠ 0 := by
    rw [← hc]
    exact hbase
  have hstart : t.chan .c0 = c.atAttempt 1 := by
    rw [← ht, State.channelMoved_chan_self, ← hc]
    exact Channel.started_eq_atAttempt ..
  have hattempt {k : Nat} (hk : k < 8) : (resendRun .c0 k t).ch0 = c.atAttempt (k + 1) :=
    resendRun_chan hbase' hstart hk
  have hout {k : Nat} (hk : k < 8) : (waitOut .c0 (resendRun .c0 k t)).ch0 = (c.atAttempt (k + 1)).expired :=
    waitOut_chan_atAttempt (s := resendRun .c0 k t) (n := .c0) hbase' (by omega) (hattempt hk)
  have hlast : (waitOut .c0 (resendRun .c0 7 t)).ch0 =
      { c.atAttempt 8 with remain := 0, state := .doneFail, result := c.txType.failResult, cause := .timeOut } :=
    (hout (by decide)).trans (Channel.expired_of_last_attempt rfl (Channel.atAttempt_attempt_toNat (by decide)).ge)
  refine ⟨fun k hk => ⟨?state, ?attempt, ?remain, fun j hj => ?waits⟩, fun k hk => ?due, ?_⟩
  case state => rw [hattempt hk]; rfl
  case attempt => rw [hattempt hk, Channel.atAttempt_attempt_toNat (by omega)]
  case remain =>
    rw [hattempt hk, ← hc]
    exact Channel.timeout_toNat _ (by omega)
  case waits =>
    have hrun : ((resendRun .c0 k t).chan .c0).state = .wait := congrArg Channel.state (hattempt hk)
    exact (congrArg Channel.state (State.tick_iterate_chan (.inl hrun) hj)).trans hrun
  case due => rw [hout (by omega), Channel.expired_atAttempt (by omega)]
  · rw [hlast, ← hc]
    exact ⟨rfl, rfl, rfl⟩

end Sys2Proof.Machine
end

section
/-! SUPPORT. ACK/NACK frames: the fields of the parse latch in numbers, what ACK_PARSE does by the outcome of its
checks, and the statements about frames (46_acknack R369 to R372, R383). -/

namespace Sys2Proof.Machine

/-! ### NACK_FATAL (46_acknack R372) -/

theorem exec_nackFatal (s : State) :
    exec .nackFatal s =
      .next ((s.setResult0 ((BitVec.ofBool (s.argReason == 0) ++ s.argReason.extractLsb' 6 1
        ++ s.argReason.extractLsb' 7 1).zeroExtend 32)).setResult1 0).done := rfl

/-- The reported bits are NO_ERROR, USER and FATAL, by division from the reason (46_acknack R372, R373). -/
theorem reasonClass_toNat (r : Byte) :
    (BitVec.ofBool (r == 0) ++ r.extractLsb' 6 1 ++ r.extractLsb' 7 1).toNat
      = r.toNat / 128 % 2 + 2 * (r.toNat / 64 % 2) + 4 * (if r.toNat = 0 then 1 else 0) := by
  have hzero : (r == 0).toNat = if r.toNat = 0 then 1 else 0 := by
    by_cases h : r = 0
    · rw [h]
      rfl
    · have hne : r.toNat ≠ 0 := fun hz => h (BitVec.eq_of_toNat_eq hz)
      rw [beq_eq_false_iff_ne.mpr h, if_neg hne]
      rfl
  simp only [toNat_append_eq_add, BitVec.toNat_ofBool, hzero, BitVec.extractLsb'_toNat,
    Nat.shiftRight_eq_div_pow]
  omega

/-- Settles O40: NACK_FATAL has no check. -/
theorem nackFatalClassifiesTheReason : Obligations.NackFatalClassifiesTheReason := by
  intro s r
  have hr : s.argReason.toNat = r := by
    rw [State.argReason, BitVec.extractLsb'_toNat, Nat.shiftRight_zero]
  have hlt : r < 256 := Nat.mod_lt _ (by decide)
  refine ⟨refEncoding_opcode .nackFatal, _, exec_nackFatal s,
    Frame.raise_results s .none (by simp) (by simp), rfl, ?_⟩
  refine (toNat_zeroExtend_word (by decide) _).trans ((reasonClass_toNat s.argReason).trans ?_)
  have hfatal : r / 128 % 2 = if 0x80 ≤ r then 1 else 0 := by split <;> omega
  have huser : r / 64 % 2 = if (0x40 ≤ r ∧ r ≤ 0x7F) ∨ 0xC0 ≤ r then 1 else 0 := by split <;> omega
  rw [hr, hfatal, huser]

/-! ### The fields of a frame (46_acknack R369, R371) -/

theorem headerLen_eq (k : FrameKind) : headerLen k = 3 + refNack k := by
  cases k <;> rfl

theorem handleSize_eq (h : BitVec 4) : handleSize h = refHandleSize h.toNat := by
  revert h
  decide

section
variable (s : State) (a : Nat) (k : FrameKind)

theorem State.parseFrame_handle_toNat :
    (s.parseFrame a k).handle.toNat = (s.readByte (0x800 + a + 2)).toNat % 16 := by
  simp only [State.parseFrame, rawBase, BitVec.extractLsb'_toNat, Nat.shiftRight_zero]

theorem State.parseFrame_msgId_toNat :
    (s.parseFrame a k).msgId.toNat
      = 16 * (s.readByte (0x800 + a + 1)).toNat + (s.readByte (0x800 + a + 2)).toNat / 16 := by
  have hlt := (s.readByte (0x800 + a + 2)).isLt
  simp only [State.parseFrame, rawBase]
  rw [toNat_append_eq_add, BitVec.extractLsb'_toNat, Nat.shiftRight_eq_div_pow]
  omega

theorem State.parseFrame_reason_toNat :
    (s.parseFrame a k).reason.toNat = if k = .nack then (s.readByte (0x800 + a + 3)).toNat else 0 := by
  cases k <;> rfl

theorem State.parseFrame_isNack_toNat : (s.parseFrame a k).isNack.toNat = refNack k := by
  cases k <;> rfl

theorem State.parseFrame_value :
    (s.parseFrame a k).value =
      if refHandleSize ((s.readByte (0x800 + a + 2)).toNat % 16) = 4 then
        s.bufferWord (0x800 + a + (3 + refNack k))
      else 0 := by
  have hword : be32 (s.rawRange (a + headerLen k) 4) = s.bufferWord (0x800 + a + (3 + refNack k)) := by
    rw [State.rawRange, State.bufferWord, headerLen_eq, Nat.add_assoc 0x800 a]
    rfl
  rw [← s.parseFrame_handle_toNat a k, ← handleSize_eq, ← hword]
  rfl

/-- PARSE0 of a frame in the numbers of its bytes (10_state R50). -/
theorem State.parseFrame_word0_toNat :
    let r := if k = .nack then (s.readByte (0x800 + a + 3)).toNat else 0
    (s.parseFrame a k).word0.toNat = 1 + 2 * refNack k + 4 * (if 128 ≤ r then 1 else 0)
      + 2 ^ 4 * (16 * (s.readByte (0x800 + a + 1)).toNat + (s.readByte (0x800 + a + 2)).toNat / 16)
      + 2 ^ 16 * ((s.readByte (0x800 + a + 2)).toNat % 16) + 2 ^ 24 * r := by
  have hfatal : ((s.parseFrame a k).isNack = true ∧ 128 ≤ (s.parseFrame a k).reason.toNat) ↔
      128 ≤ if k = .nack then (s.readByte (0x800 + a + 3)).toNat else 0 := by
    rw [s.parseFrame_reason_toNat]
    cases k <;> simp [State.parseFrame, FrameKind.toK]
  rw [Parse.word0_toNat, if_congr hfatal rfl rfl, s.parseFrame_msgId_toNat, s.parseFrame_handle_toNat,
    s.parseFrame_reason_toNat, s.parseFrame_isNack_toNat]
  rfl

end

/-! ### ACK_PARSE (46_acknack R370) -/

section
variable {s : State} {a b : Nat} {k : FrameKind}

/-- The first check of ACK_PARSE: range, length and order. -/
abbrev State.frameLegal (s : State) (a b : Nat) (k : FrameKind) : Prop :=
  a + b ≤ 256 ∧ 3 + refNack k ≤ b ∧ s.crcOrder.toNat ≤ 8

/-- The second check: the first byte of the frame is the CRC of the others. -/
abbrev State.frameCrcOk (s : State) (a b : Nat) : Prop :=
  (s.readByte (0x800 + a)).toNat = refCrcOfBytes s s.crcInit (0x800 + a + 1) (b - 1)

/-- The third check: the handle is not reserved and its data lie in the frame. -/
abbrev State.frameHandleOk (s : State) (a b : Nat) (k : FrameKind) : Prop :=
  (s.readByte (0x800 + a + 2)).toNat % 16 < 12 ∧
    3 + refNack k + refHandleSize ((s.readByte (0x800 + a + 2)).toNat % 16) ≤ b

/-- The state after ACK_PARSE of a frame that passes the checks. -/
def State.frameLatched (s : State) (a : Nat) (k : FrameKind) : State :=
  ((State.setResult0 { s with parse := s.parseFrame a k } (s.parseFrame a k).word0).setResult1
    (BitVec.ofNat 32 (a + headerLen k))).done

theorem not_frameLegal_iff : ¬ s.frameLegal a b k ↔ ¬ rawFits a b ∨ b < headerLen k ∨ ¬ s.storedCrcOk := by
  rw [headerLen_eq, not_and_or, not_and_or, Nat.not_le (a := 3 + refNack k)]

theorem frameCrcOk_iff (h : s.crcOrder.toNat ≤ 8) :
    s.frameCrcOk a b ↔
      (s.readByte (rawBase + a)).zeroExtend 16 = s.crc (s.rawRange (a + 1) (b - 1)) s.crcInit := by
  have hcrc := State.crc_rawRange_toNat (h.trans (by decide)) (a + 1) (b - 1) .crcInit
  rw [← BitVec.toNat_inj, BitVec.toNat_setWidth_of_le (by decide)]
  exact Eq.congr_right hcrc.symm

theorem not_frameHandleOk_iff :
    ¬ s.frameHandleOk a b k ↔
      12 ≤ (s.parseFrame a k).handle ∨ b < headerLen k + handleSize (s.parseFrame a k).handle := by
  rw [BitVec.le_def, handleSize_eq, headerLen_eq, s.parseFrame_handle_toNat, not_and_or, Nat.not_lt, Nat.not_le]
  rfl

theorem exec_ackParse_badParam (h : ¬ s.frameLegal a b k) :
    exec (.ackParse a b k) s = .next (s.raise .badParam) :=
  congrArg Host.Outcome.next (if_pos (not_frameLegal_iff.mp h))

section
variable (h : s.frameLegal a b k)
include h

theorem exec_ackParse_crcFail (hcrc : ¬ s.frameCrcOk a b) :
    exec (.ackParse a b k) s = .next (s.raise .crcFail) :=
  congrArg Host.Outcome.next <|
    (if_neg (not_frameLegal_iff.not_right.mp h)).trans <| if_pos ((frameCrcOk_iff h.2.2).not.mp hcrc)

variable (hcrc : s.frameCrcOk a b)
include hcrc

theorem exec_ackParse_badHandle (hhandle : ¬ s.frameHandleOk a b k) :
    exec (.ackParse a b k) s = .next (s.raise .badParam) :=
  congrArg Host.Outcome.next <|
    (if_neg (not_frameLegal_iff.not_right.mp h)).trans <|
      (if_neg (not_not.mpr ((frameCrcOk_iff h.2.2).mp hcrc))).trans <| if_pos (not_frameHandleOk_iff.mp hhandle)

theorem exec_ackParse_done (hhandle : s.frameHandleOk a b k) :
    exec (.ackParse a b k) s = .next (s.frameLatched a k) :=
  congrArg Host.Outcome.next <|
    (if_neg (not_frameLegal_iff.not_right.mp h)).trans <|
      (if_neg (not_not.mpr ((frameCrcOk_iff h.2.2).mp hcrc))).trans <|
        if_neg (not_frameHandleOk_iff.not_right.mp hhandle)

end

end

theorem Frame.frameLatched (s : State) (a : Nat) (k : FrameKind) :
    Frame .none 0 [.parse, .result0, .result1] s (s.frameLatched a k) :=
  Frame.of_complete rfl BitVec.or_zero.symm { SameHost.refl s with } (by simp) (by simp) (fun _ => ⟨rfl, rfl, rfl⟩)
    (by simp) (fun n _ => by cases n <;> rfl) (fun _ _ => rfl) (fun _ _ => rfl)

/-- Settles O39: the three checks in order, then the fields of the frame. -/
theorem ackParseChecksThenLatchesTheFrame : Obligations.AckParseChecksThenLatchesTheFrame := by
  intro s a b k _ raw hdr inRange crcOk h handleOk id r
  refine ⟨refEncoding_opcode (.ackParse a b k), fun hrange => ?_, fun hrange hcrc => ?_,
    fun hrange hcrc hhandle => ?_, fun hrange hcrc hhandle => ?_⟩
  · exact ⟨_, exec_ackParse_badParam hrange, Frame.raise s _⟩
  · exact ⟨_, exec_ackParse_crcFail hrange hcrc, Frame.raise s _⟩
  · exact ⟨_, exec_ackParse_badHandle hrange hcrc hhandle, Frame.raise s _⟩
  · have hparse0 : refRead (s.frameLatched a k) 0x068 = (s.parseFrame a k).word0.toNat :=
      WindowMap.parse0.refRead_eq (s.frameLatched a k)
    have hoffset : (BitVec.ofNat 32 (a + headerLen k)).toNat = a + hdr := by
      obtain ⟨hfits, -⟩ := hrange
      rw [headerLen_eq]
      exact Nat.mod_eq_of_lt (by omega)
    exact ⟨_, exec_ackParse_done hrange hcrc hhandle, Frame.frameLatched s a k,
      hparse0.trans (s.parseFrame_word0_toNat a k), s.parseFrame_value a k, hparse0.symm, hoffset⟩

/-- Settles O48: ACK_PARSE keeps the channels and latches an ACK, to which the response is DONE_OK. -/
theorem matchingAckEndsTheTransactionWell : Obligations.MatchingAckEndsTheTransactionWell := by
  intro s a b hwait _ horder hlen hfits hcrc hid hnone
  have hhandle : s.frameHandleOk a b .ack := by
    rw [State.frameHandleOk, hnone]
    exact ⟨by decide, hlen⟩
  have hmatch : (s.parseFrame a .ack).msgId = s.ch0.expId :=
    BitVec.eq_of_toNat_eq ((s.parseFrame_msgId_toNat a .ack).trans hid)
  have hwaits : ((s.frameLatched a .ack).chan .c0).state.inProgress = true := by
    rw [show ((s.frameLatched a .ack).chan .c0).state = .wait from hwait]
    rfl
  have hrespond := exec_arbRespond_done (s := s.frameLatched a .ack) (n := .c0) hwaits rfl hmatch
  rw [Channel.respond_ack (p := (s.frameLatched a .ack).parse) rfl] at hrespond
  refine ⟨_, _, exec_ackParse_done ⟨hfits, hlen, horder⟩ hcrc hhandle, hrespond, rfl, rfl, rfl, rfl, rfl, rfl, ?_⟩
  rw [State.channelMoved_intStatus]
  simp [refEvent]

end Sys2Proof.Machine
end
